-- ==== Sys2Proof/Word.lean ====
section
/-! DEFINITION. The two word sizes of spec/00_scope.md section 4.1: a byte has eight bits, a packet word ten. -/

namespace Sys2Proof

/-- A byte: eight bits (spec/00_scope.md 4.1). -/
abbrev Byte := BitVec 8

/-- One word of an input or output line: ten bits (spec/00_scope.md 4.1). In picture lines it is a sample
code, in control window lines a packet word. -/
abbrev LineWord := BitVec 10

end Sys2Proof
end

