-- ==== Sys2Proof/Syntax.lean ====
section
/-! DEFINITION. The commands of the Framehill 6240: one constructor of `Instr` for each row of
spec/opcode_table.json, and the types of their operands. -/

namespace Sys2Proof

/-- The four channels (spec/00_scope.md 2). -/
inductive Chan where
  | c0 | c1 | c2 | c3
  deriving DecidableEq, Repr, Inhabited

/-- Field parity (R5). -/
inductive Parity where
  | top | bottom
  deriving DecidableEq, Repr, Inhabited

/-- Field-rate families, 50 and 59.94 (R1, R114). -/
inductive Family where
  | f50 | f5994
  deriving DecidableEq, Repr, Inhabited

/-- A timing word as R11 hands it to the rules: whether its check holds, and its field-start and parity
indications. Its line-start indication is the command itself. -/
structure TimingWord where
  valid      : Bool
  fieldStart : Bool
  parity     : Parity
  deriving DecidableEq, Repr, Inhabited

/-- What the line that a timing word ends brought: its length in luma sample periods (R11) and its words
from the line start on, two to a sample period. A period for which no word is listed brought black. -/
structure LineIn where
  periods : Nat
  words   : List LineWord
  deriving DecidableEq, Repr, Inhabited

/-- The class a word's syndrome gives it (R54). -/
inductive WordClass where
  | clean | single | double
  deriving DecidableEq, Repr, Inhabited

/-- What the test of one protected word yields when it is not the word as written (R54): its class, its
syndrome, the data bits that read differently from the data written, and the data bit that the syndrome
names for correction (`none`: a check bit, or no correction). -/
structure WordError where
  cls      : WordClass
  syndrome : Byte
  flips    : BitVec 64
  fix      : Option (Fin 64)
  deriving DecidableEq, Repr, Inhabited

/-- Bit errors that struck word `word` of the line being read since it was last written or read. -/
structure Strike where
  word : Fin 240
  err  : WordError
  deriving DecidableEq, Repr, Inhabited

/-- What a read burst found: the bit errors that struck words of its line, and how many words of it had been read at each
SET DEVICE OPTIONS taken during the burst, in order (R58; log entry 30). -/
structure LineRead where
  strikes : List Strike
  read    : List Nat
  deriving DecidableEq, Repr, Inhabited

/-- The consumers' work at an output frame start (R120), as the pieces that may come in either order:
the RTU's own events and family change (R116, R118, R119, R136); the Table Loader's work (R150, R152); a
channel's Channel Controller, engine and scaler work (R126 to R138, R84, R88, R105); its receiver's loss
count (R26); its report insertion and delivery (R168); and the taking of one directive from its queue (R159). -/
inductive StartWork where
  | announce
  | loader
  | control (c : Chan)
  | loss    (c : Chan)
  | report  (c : Chan)
  | packet  (c : Chan)
  deriving DecidableEq, Repr, Inhabited

/-- The commands: one constructor per row of spec/opcode_table.json. A directive's row is the taking of
that directive from the head of the channel's directive queue at the output frame start now arriving
(R159); its tag and payload are those of the queue's entry. -/
inductive Instr where
  /-- POWER_ON_RESET: the address straps, and what the DRAM holds when power comes. -/
  | powerOnReset (straps : BitVec 4) (found : List Host.Cell) (errs : List (Nat × WordError))
  /-- PIN_RESET: the address straps. -/
  | pinReset (straps : BitVec 4)
  | restartDevice (c : Chan)
  | probe (c : Chan)
  | setFormat (c : Chan)
  | setParameters (c : Chan)
  | start (c : Chan)
  | halt (c : Chan)
  | resetChannel (c : Chan)
  | readStats (c : Chan)
  | loadBegin (c : Chan)
  | loadSegment (c : Chan)
  | loadCommit (c : Chan)
  | loadAbort (c : Chan)
  | readTable (c : Chan)
  | deviceStatus (c : Chan)
  | clearErrors (c : Chan)
  | setDeviceOptions (c : Chan)
  | armProbe (c : Chan)
  | readProbe (c : Chan)
  | unknownKind (c : Chan)
  /-- TIMING_WORD: `dt` is the time since the previous timed event; `line` is the line this word ends. -/
  | timingWord (c : Chan) (dt : Nat) (w : TimingWord) (line : LineIn)
  | controlPacket (c : Chan)
  | writeBurstComplete
  | readBurstComplete (line : LineRead)
  /-- REFERENCE_PULSE: the pulse's family; `order` is the order of the consumers' work at the start. -/
  | referencePulse (dt : Nat) (family : Family) (order : List StartWork)
  | refLossTimeout (order : List StartWork)
  | freeRunExpiry (order : List StartWork)
  | inputLoss (c : Chan)
  | loadAbandoned
  | tableSwap
  | haltComplete (c : Chan)
  | outputLinePeriod (c : Chan)
  deriving DecidableEq, Repr

end Sys2Proof
end

