-- ==== Sys2Proof/Decode.lean ====
section
/-! DEFINITION. The command a word spells. No row of spec/opcode_table.json gives bits (spec/98_reader.md:
n_rows_with_fixed 0, n_rows_with_fields 0), so no word spells a command. Log entry 8. -/

namespace Sys2Proof

/-- The command that the low `nbits` bits of `w` spell by the table: none, since the table gives no row any bits. -/
def decodeTableWord (_nbits _w : Nat) : Option Instr := none

end Sys2Proof
end

