-- ==== Sys2Proof/Config.lean ====
section
/-! DEFINITION. What the spec leaves free: the values a write burst leaves behind when a device reset cuts it short. -/

namespace Sys2Proof

/-- What one word of a line place holds after a device reset cut short the write burst of that line
(R52): the word as before, the new word, or a word whose check bits do not match. -/
inductive CutWord where
  | kept
  | written
  | torn (data : BitVec 64) (err : WordError)
  deriving DecidableEq, Repr, Inhabited

/-- FREE VALUE (R52): "A write burst cut short this way may leave its line place partly written, with some
words whose check bits do not match." Which words, the spec does not say. `draw` numbers the cut bursts,
`word` is 0 to 239. It has no body: no proof can see what it is. Log entry 15. -/
opaque Config.cutWord (draw word : Nat) : CutWord

end Sys2Proof
end

