-- ==== Sys2Proof/Machine/Types.lean ====
section
/-! DEFINITION. The records, lists and enumerations each block keeps, as plain data, in the spec's own names. -/

namespace Sys2Proof.Machine

open Sys2Proof

/-- Scanning standards (R1). -/
inductive Standard where
  | s625 | s525 | s405
  deriving DecidableEq, Repr, Inhabited

/-- Output rasters (R6). -/
inductive Raster where
  | r1080 | r720
  deriving DecidableEq, Repr, Inhabited

/-- Aspect modes (R7). -/
inductive Aspect where
  | pillar | crop149 | stretch
  deriving DecidableEq, Repr, Inhabited

/-- A luma, Cb, Cr triple (R8). -/
structure Colour where
  y  : Nat
  cb : Nat
  cr : Nat
  deriving DecidableEq, Repr, Inhabited

/-- The channel format record (R9). -/
structure Format where
  standard : Standard
  raster   : Raster
  aspect   : Aspect
  vset     : Fin 4
  hset     : Fin 4
  fill     : Colour
  deriving DecidableEq, Repr, Inhabited

/-- Cadence policy (R137). -/
inductive Policy where
  | filmAllowed | videoOnly
  deriving DecidableEq, Repr, Inhabited

/-- The field group of the parameters (R137). -/
structure FieldParams where
  noise       : Nat
  comb        : Nat
  repeatLimit : Nat
  pairLimit   : Nat
  confirm     : Nat
  hold        : Nat
  policy      : Policy
  deriving DecidableEq, Repr, Inhabited

/-- Loss action (R134). -/
inductive LossAction where
  | hold | black
  deriving DecidableEq, Repr, Inhabited

/-- The frame group of the parameters (R137). -/
structure FrameParams where
  curve         : Fin 4
  fallbackLimit : Nat
  lossAction    : LossAction
  deriving DecidableEq, Repr, Inhabited

/-- Channel states (R124). -/
inductive ChanState where
  | stopped | starting | running | halting | lost
  deriving DecidableEq, Repr, Inhabited

/-- The halt record (R123): the state the HALT came from, the number of the output frame start at which it
was taken, the tag of its deferred answer. -/
structure HaltRecord where
  origin : ChanState
  entry  : Nat
  tag    : Byte
  deriving DecidableEq, Repr, Inhabited

/-! ### The field ring (R30) -/

/-- State of a field record (R30). -/
inductive RecordState where
  | filling | complete
  deriving DecidableEq, Repr, Inhabited

/-- Parity vote of a field record (R16, R13). -/
inductive VoteResult where
  | threeOfThree | twoOfThree | flywheel
  deriving DecidableEq, Repr, Inhabited

/-- Causes of a dropout (R30). -/
inductive Cause where
  | timing | short | lost | ecc
  deriving DecidableEq, Repr, Inhabited

/-- An entry of a dropout list (R37): active line number and cause. -/
structure Dropout where
  line  : Nat
  cause : Cause
  deriving DecidableEq, Repr, Inhabited

/-- Cadence symbols (R68); `neither` is NONE. -/
inductive Symbol where
  | neither | p | r | pr | unknown
  deriving DecidableEq, Repr, Inhabited

/-- The partner of a FILM decision (R30). -/
inductive Partner where
  | prev | next
  deriving DecidableEq, Repr, Inhabited

/-- The recorded decision (R30). -/
inductive Decision where
  | video
  | film (partner : Partner)
  deriving DecidableEq, Repr, Inhabited

/-- A field record (R30). -/
structure FieldRecord where
  num      : Nat
  slot     : Fin 8
  state    : RecordState
  parity   : Option Parity
  vote     : Option VoteResult
  stored   : Nat
  dropouts : List Dropout
  damaged  : Bool
  offset   : Nat
  repeatM  : Option Nat
  combM    : Option Nat
  symbol   : Option Symbol
  decision : Option Decision
  pinned   : Bool
  uses     : Nat
  deriving DecidableEq, Repr, Inhabited

/-! ### The Input Receiver (02_input_receivers section 2.1) -/

/-- Receiver states (R12, R26). -/
inductive RecvState where
  | seeking | inField | loss
  deriving DecidableEq, Repr, Inhabited

/-- A complete active line waiting in the line buffer (R21): its active line number, its 1440 clamped
sample words in the order of R2, and whether it was judged a TIMING line (R18). -/
structure BufLine where
  line   : Nat
  words  : List Nat
  timing : Bool
  deriving DecidableEq, Repr, Inhabited

/-- The receiver context. `lineValid` says whether the own timing word of the line in progress passed its
check (R18). `assembly` is the assembly line: the clamped words received of the active line in progress, none
between commands, since a line's words come with the timing word that ends it (log entry 4). -/
structure Receiver where
  state        : RecvState
  lineNo       : Nat
  fieldStd     : Standard
  accepted     : Bool
  vote         : List Parity
  voteClosed   : Bool
  prevParity   : Option Parity
  lineValid    : Bool
  assembly     : List Nat
  buffer       : List BufLine
  lossCount    : Nat
  latestOffset : Option Nat
  drift        : Int
  deriving DecidableEq, Repr, Inhabited

/-! ### The Cadence Tracker (R60, R61) -/

/-- The candidate of SEARCH with its run count (R60). -/
structure Candidate where
  pat   : Fin 8
  phase : Nat
  run   : Nat
  deriving DecidableEq, Repr, Inhabited

/-- The tracking state with the items that state uses (R60). -/
inductive Track where
  | search (cand : Option Candidate)
  | locked (pat : Fin 8) (phase : Nat)
  | hold   (pat : Fin 8) (phase : Nat) (count : Nat)
  deriving DecidableEq, Repr, Inhabited

/-- The name of a tracking state, as PROBE and the Sample Probe give it (R163, R175). -/
inductive TrackName where
  | search | locked | hold
  deriving DecidableEq, Repr, Inhabited

/-- A field image of the measurement store (R61): the lines written, each with its 360 even luma samples,
and the copy of the field's parameters (R63). -/
structure Image where
  num    : Nat
  params : FieldParams
  lines  : List (Nat × List Nat)
  deriving DecidableEq, Repr, Inhabited

/-- The cadence context and the measurement store of a channel (R60, R61); images oldest first. -/
structure Cadence where
  track       : Track
  history     : List Symbol
  lastDecided : Option Nat
  images      : List Image
  deriving DecidableEq, Repr, Inhabited

/-! ### The Reconstruction Engine (R83) -/

/-- A row of samples: luma, Cb, Cr. -/
structure Row where
  y  : Array Nat
  cb : Array Nat
  cr : Array Nat
  deriving DecidableEq, Repr, Inhabited

/-- The three sources of a frame (R83). -/
inductive Role where
  | centre | pred | succ
  deriving DecidableEq, Repr, Inhabited

/-- A source of a frame: the record's number, slot and parity (R83). -/
structure SourceRef where
  num    : Nat
  slot   : Fin 8
  parity : Parity
  deriving DecidableEq, Repr, Inhabited

/-- Whether the engine's read is idle, pending at the arbiter or in flight (R50). -/
inductive ReadStatus where
  | idle | pending | inFlight
  deriving DecidableEq, Repr, Inhabited

/-- A line of a source whose turn has come (R86): `none` when it is to be treated as listed. -/
structure Fetched where
  role : Role
  line : Nat
  row  : Option Row
  deriving DecidableEq, Repr, Inhabited

/-- The engine's frame context (R83). `turn` is the place of the next read in the plan of R85 (three turns
to a line place); `rowsBuilt` counts rows in the build order of R87; `cache` holds the built rows awaiting
release, `lines` the fetched lines; `begun` is the number of the output frame start that began the frame;
`delivered` says whether a read of the frame has completed, before which no row is built (R175). -/
structure Frame where
  centre        : SourceRef
  pred          : Option SourceRef
  succ          : Option SourceRef
  mode          : Decision
  first         : Bool
  curveNo       : Fin 4
  curve         : List Byte
  comb          : Nat
  fallbackLimit : Nat
  height        : Nat
  begun         : Nat
  turn          : Nat
  read          : ReadStatus
  delivered     : Bool
  rowsBuilt     : Nat
  lines         : List Fetched
  cache         : List (Nat × Row)
  fallback      : Nat
  deriving DecidableEq, Repr, Inhabited

/-! ### The Scaler and the output formatter (R105) -/

/-- Frame kinds (R105). -/
inductive FrameKind where
  | picture | black
  deriving DecidableEq, Repr, Inhabited

/-- The Scaler's frame context (R105), with the line period that begins next (R104), the family in force
for the frame (R104), whether its engine abandoned the frame (R89, R110), and the number of the output
frame start that began it. -/
structure ScalerFrame where
  kind       : FrameKind
  raster     : Raster
  aspect     : Aspect
  fill       : Colour
  vset       : Fin 4
  hset       : Fin 4
  vcoefs     : List Byte
  hcoefs     : List Byte
  bandFirst  : Nat
  bandCount  : Nat
  nextLine   : Nat
  prevLine   : Option Row
  period     : Nat
  family     : Family
  abandoned  : Bool
  begun      : Nat
  deriving DecidableEq, Repr, Inhabited

/-- What the output formatter still needs of an output frame in progress whose Scaler frame context a device reset took
away (R89, R122): its raster and aspect, the colour outside its active window, the line period that begins next, and the
family in force for the frame (R104). -/
structure EndedFrame where
  raster : Raster
  aspect : Aspect
  fill   : Colour
  period : Nat
  family : Family
  deriving DecidableEq, Repr, Inhabited

/-- What an output line period emits (R104, R113, R168). -/
inductive OutLine where
  | blanking
  | report (words : List LineWord)
  | active (row : Row)
  deriving DecidableEq, Repr, Inhabited

/-! ### Reports (R166 to R171) -/

/-- Event kinds, in the bit order of the event mask (R162). -/
inductive EventKind where
  | inputLost | inputRestored | cadenceLocked | cadenceLost | slipDrop | slipRepeat | rateMismatch
  | checksumFail | directiveOverrun | eccSingle | eccDouble | refLost | refLocked | loadAbandoned
  | probeHit | restart
  deriving DecidableEq, Repr, Inhabited

/-- Answer codes (R160). -/
inductive AnswerCode where
  | done | busy | refused | aborted
  deriving DecidableEq, Repr, Inhabited

/-- Refusal reasons (R160). -/
inductive Reason where
  | badArgument | rateMismatch | readOnly | sequence | noLoad | incomplete | validation | unknownKind
  deriving DecidableEq, Repr, Inhabited

/-- A report of a report queue (R166, R167). `reason` is present with REFUSED. A RELAY keeps the bytes of
its packet from address to checksum. -/
inductive Report where
  | answer (tag kind : Byte) (code : AnswerCode) (reason : Option Reason) (data : List Byte)
  | event  (kinds : BitVec 16) (field count : Nat)
  | relay  (bytes : List Byte)
  deriving DecidableEq, Repr, Inhabited

/-- The held status (R171): its set of kinds in the bit order of the event mask. -/
structure Held where
  kinds : BitVec 16
  first : Nat
  count : Nat
  deriving DecidableEq, Repr, Inhabited

/-- The fourteen counters (R173) and `fallback_last_field` (R99). -/
structure Stats where
  fieldsReceived      : Nat
  fieldsDropped       : Nat
  fieldsRepeated      : Nat
  dropoutLines        : Nat
  damagedFields       : Nat
  parityDisputes      : Nat
  flywheelStarts      : Nat
  cadenceLocks        : Nat
  cadenceLosses       : Nat
  eccSingle           : Nat
  eccDouble           : Nat
  directivesDiscarded : Nat
  relaysDiscarded     : Nat
  readUnderruns       : Nat
  fallbackLastField   : Nat
  deriving DecidableEq, Repr, Inhabited

/-! ### Packets, tables, memory and device-wide records -/

/-- An entry of a directive queue (R158); its length is that of its payload. -/
structure Directive where
  kind    : Byte
  tag     : Byte
  payload : List Byte
  deriving DecidableEq, Repr, Inhabited

/-- The directives (R162). -/
inductive DirKind where
  | probe | setFormat | setParameters | start | halt | resetChannel | readStats
  | loadBegin | loadSegment | loadCommit | loadAbort | readTable
  | deviceStatus | clearErrors | setDeviceOptions | armProbe | readProbe | restartDevice
  deriving DecidableEq, Repr, Inhabited

/-- An entry of one of the three tables (R141). -/
inductive TableEntry where
  | pattern (i : Fin 8)
  | coef    (i : Fin 4)
  | curve   (i : Fin 4)
  deriving DecidableEq, Repr, Inhabited

/-- The active banks, each entry as its byte image (R141, R143, R144). -/
structure Tables where
  patterns : Vector (List Byte) 8
  coefs    : Vector (List Byte) 4
  curves   : Vector (List Byte) 4
  deriving DecidableEq, Repr

/-- The Table Loader's load state (R145). -/
inductive LoadState where
  | idle
  | loading (owner : Chan) (entry : TableEntry) (received idleCount : Nat)
  | commitPending (owner : Chan) (entry : TableEntry) (tag : Byte) (start : Nat)
  deriving DecidableEq, Repr, Inhabited

/-- A burst in flight (R51, R52). A write carries the line that left the buffer at its grant. A read names
its source and record; `live` says its engine has neither ended nor abandoned the frame, `present` that the
record is still in the ring (R56). -/
inductive Burst where
  | write (c : Chan) (slot : Fin 8) (line : Nat) (words : List Nat)
  | read  (c : Chan) (slot : Fin 8) (line : Nat) (role : Role) (num : Nat) (live present : Bool)
  deriving DecidableEq, Repr, Inhabited

/-- The arbiter (R51): IDLE is no burst in flight. -/
structure Arbiter where
  burst     : Option Burst
  lastWrite : Chan
  lastRead  : Chan
  deriving DecidableEq, Repr, Inhabited

/-- States of the Error Capture record (R57). -/
inductive CaptureState where
  | clear | single | double
  deriving DecidableEq, Repr, Inhabited

/-- The Error Capture record (R57). -/
structure ErrorCapture where
  state    : CaptureState
  chan     : Chan
  slot     : Fin 8
  line     : Nat
  word     : Nat
  syndrome : Byte
  later    : Bool
  deriving DecidableEq, Repr, Inhabited

/-- RTU states (R114). -/
inductive RtuState where
  | locked50 | locked5994 | freeRun
  deriving DecidableEq, Repr, Inhabited

/-- The Reference Timing Unit (R114). `deadline` is when the running timer expires: the loss timeout in
LOCKED, the free-run period in FREE_RUN. Times are in the units of log entry 5. -/
structure Rtu where
  state       : RtuState
  family      : Family
  latestPulse : Option Nat
  latestStart : Option Nat
  deadline    : Nat
  deriving DecidableEq, Repr, Inhabited

/-- Conditions of the Sample Probe (R175). -/
inductive Condition where
  | any | film | video | fallback | motionAtLeast
  deriving DecidableEq, Repr, Inhabited

/-- The arm record (R174). -/
structure Arm where
  chan   : Chan
  row    : Nat
  column : Nat
  cond   : Condition
  m      : Nat
  deriving DecidableEq, Repr, Inhabited

/-- A sample account (R102) and, with it, the capture record (R175). -/
structure Account where
  field    : Nat
  mode     : Decision
  fallback : Bool
  s        : Nat
  t        : Option Nat
  m        : Nat
  w        : Nat
  o        : Nat
  track    : TrackName
  deriving DecidableEq, Repr, Inhabited

/-- The Sample Probe with the records its state keeps (R174). -/
inductive Probe where
  | idle
  | armed (arm : Arm)
  | captured (arm : Arm) (capture : Account)
  deriving DecidableEq, Repr, Inhabited

/-- Reset causes (R176). -/
inductive ResetCause where
  | powerOn | resetPin | restartDirective
  deriving DecidableEq, Repr, Inhabited

/-! ### A channel -/

/-- The Channel Controller's context (R123). `priorFormat` is the format held before the first SET FORMAT of
the output frame start whose number stands beside it (R10). -/
structure Control where
  state        : ChanState
  format       : Format
  priorFormat  : Option (Format × Nat)
  field        : FieldParams
  frame        : FrameParams
  pendingField : Option FieldParams
  pendingFrame : Option (FrameParams × Nat)
  lastOutput   : Option Nat
  halt         : Option HaltRecord
  deriving DecidableEq, Repr, Inhabited

/-- The Packet Unit's part of a channel: window lines handed on and not yet checked (R23, R156), the
directive queue (R158), and how many directives the coming output frame start has had (R159). -/
structure PacketPort where
  handed   : List (List LineWord)
  dirQueue : List Directive
  taken    : Nat
  deriving DecidableEq, Repr, Inhabited

/-- The Report Unit's part of a channel (R166 to R171). -/
structure ReportPort where
  queue  : List Report
  window : List Report
  held   : Held
  mask   : BitVec 16
  deriving DecidableEq, Repr, Inhabited

/-- Everything one channel holds. `ended` is the rest of an output frame that a device reset ended (log entry 29), none
once the next output frame start has latched a Scaler frame context. `lossDone` and `haltDone` say that the receiver's loss work, or the
entry to STOPPED, of the coming output frame start has been done by a row of its own (log entry 2). -/
structure Channel where
  recv       : Receiver
  fieldCount : Nat
  ring       : List FieldRecord
  cad        : Cadence
  engine     : Option Frame
  scaler     : Option ScalerFrame
  ended      : Option EndedFrame
  out        : Option OutLine
  ctl        : Control
  pku        : PacketPort
  rep        : ReportPort
  stats      : Stats
  lossDone   : Bool
  haltDone   : Bool
  deriving DecidableEq, Repr, Inhabited

/-- Four of a kind, one per channel. -/
structure Quad (α : Type) where
  at0 : α
  at1 : α
  at2 : α
  at3 : α
  deriving DecidableEq, Repr, Inhabited

end Sys2Proof.Machine
end

