-- ==== Sys2Proof/Machine/Geometry.lean ====
section
/-! DEFINITION. Chapter 1: the geometry of standards, rasters and aspect modes, the legal range, field
numbers and row mapping; and the four channels in order. -/

namespace Sys2Proof.Machine

open Sys2Proof

/-! ### Channels -/

/-- The channel's number, 0 to 3. -/
def chanNat : Chan → Nat
  | .c0 => 0
  | .c1 => 1
  | .c2 => 2
  | .c3 => 3

/-- The channel of a number, when it is at most 3. -/
def chanOfNat? (n : Nat) : Option Chan :=
  match n with
  | 0 => some .c0
  | 1 => some .c1
  | 2 => some .c2
  | 3 => some .c3
  | _ => none

/-- The four channels in ascending order. -/
def allChans : List Chan := [.c0, .c1, .c2, .c3]

/-- The channel after `c`, mod 4 (R51). -/
def chanNext : Chan → Chan
  | .c0 => .c1
  | .c1 => .c2
  | .c2 => .c3
  | .c3 => .c0

/-- The four channels in rotation, from the one after `last` (R51). -/
def rotation (last : Chan) : List Chan :=
  [chanNext last, chanNext (chanNext last), chanNext (chanNext (chanNext last)), last]

/-! ### Standards (R1) -/

/-- Active lines per field, h (R1). -/
def activeLines : Standard → Nat
  | .s625 => 288
  | .s525 => 243
  | .s405 => 188

/-- First active line, V (R1). -/
def firstActive : Standard → Nat
  | .s625 => 23
  | .s525 => 20
  | .s405 => 14

/-- Line length in luma sample periods, L (R1). -/
def lineLength : Standard → Nat
  | .s625 => 864
  | .s525 => 858
  | .s405 => 1332

/-- The standard's family (R1). -/
def familyOf : Standard → Family
  | .s625 => .f50
  | .s525 => .f5994
  | .s405 => .f50

/-- Rows of the source frame, 2h (R5). -/
def frameRows (std : Standard) : Nat := 2 * activeLines std

/-- The line at which a flywheel start is declared, V + h + 8 (R13). -/
def flywheelLine (std : Standard) : Nat := firstActive std + activeLines std + 8

/-! ### Field numbers (R4) -/

/-- Field numbers run from 0 to 2^32 - 1 (R4). -/
def fieldModulus : Nat := 4294967296

/-- Number `a` is newer than number `b`: (a - b) mod 2^32 lies in 1 to 2^31 - 1 (R4). -/
def newer (a b : Nat) : Bool :=
  let d := (a + (fieldModulus - b % fieldModulus)) % fieldModulus
  decide (1 ≤ d) && decide (d ≤ 2147483647)

/-- The number after `n`, wrapping (R4). -/
def nextField (n : Nat) : Nat := (n + 1) % fieldModulus

/-! ### Parity and rows (R5) -/

/-- The other parity. -/
def opposite : Parity → Parity
  | .top    => .bottom
  | .bottom => .top

/-- The frame row of active line `k` of a field (R5). -/
def frameRow (p : Parity) (k : Nat) : Nat :=
  match p with
  | .top    => 2 * k
  | .bottom => 2 * k + 1

/-- Whether a field of the parity supplies row `r` (R5). -/
def supplies (p : Parity) (r : Nat) : Bool :=
  match p with
  | .top    => r % 2 == 0
  | .bottom => r % 2 == 1

/-- The line place of row `r`: r divided by 2, rounded down (R49). -/
def linePlace (r : Nat) : Nat := r / 2

/-! ### The legal range (R3) -/

/-- The nearer end of a range for a value outside it (00_scope 4.2). -/
def clampNat (lo hi x : Nat) : Nat := if x < lo then lo else if hi < x then hi else x

/-- Luma 64 to 940 (R3). -/
def legalLuma (x : Nat) : Nat := clampNat 64 940 x

/-- Chroma 64 to 960 (R3). -/
def legalChroma (x : Nat) : Nat := clampNat 64 960 x

/-- Sample word `i` of a line in the order Cb, Y, Cr, Y (R2): odd places hold luma. -/
def isLumaWord (i : Nat) : Bool := i % 2 == 1

/-- The clamp of sample word `i` of a line (R3). -/
def legalWord (i x : Nat) : Nat := if isLumaWord i then legalLuma x else legalChroma x

/-- Black at sample word `i` (R3, R18). -/
def blackWord (i : Nat) : Nat := if isLumaWord i then 64 else 512

/-- Black: luma 64, Cb 512, Cr 512 (R3). -/
def blackColour : Colour := ⟨64, 512, 512⟩

/-! ### Rasters, windows and bands (R6, R7, R104) -/

/-- Luma samples of an output line (R6). -/
def rasterWidth : Raster → Nat
  | .r1080 => 1920
  | .r720  => 1280

/-- Active lines of an output frame (R6). -/
def rasterHeight : Raster → Nat
  | .r1080 => 1080
  | .r720  => 720

/-- Line periods of a nominal frame (R104). -/
def framePeriods : Raster → Nat
  | .r1080 => 1125
  | .r720  => 750

/-- The line period of output line 0 (R104). -/
def firstPeriod : Raster → Nat
  | .r1080 => 41
  | .r720  => 26

/-- Whether a line period lies in the report window: the four before output line 0 (R104, R168). -/
def inReportWindow (r : Raster) (p : Nat) : Bool :=
  decide (firstPeriod r - 4 ≤ p) && decide (p < firstPeriod r)

/-- The output line of a line period, when it is an active one (R104). -/
def outputLineOf (r : Raster) (p : Nat) : Option Nat :=
  if firstPeriod r ≤ p ∧ p < firstPeriod r + rasterHeight r then some (p - firstPeriod r) else none

/-- First active column and active width of the window (R7). -/
def activeWindow (a : Aspect) (r : Raster) : Nat × Nat :=
  match a, r with
  | .pillar,  .r1080 => (240, 1440)
  | .pillar,  .r720  => (160, 960)
  | .crop149, .r1080 => (120, 1680)
  | .crop149, .r720  => (80, 1120)
  | .stretch, .r1080 => (0, 1920)
  | .stretch, .r720  => (0, 1280)

/-- First source row used and source rows used (R7). -/
def sourceBand (a : Aspect) (std : Standard) : Nat × Nat :=
  match a, std with
  | .crop149, .s625 => (41, 494)
  | .crop149, .s525 => (35, 416)
  | .crop149, .s405 => (27, 322)
  | .pillar,  .s625 => (0, 576)
  | .pillar,  .s525 => (0, 486)
  | .pillar,  .s405 => (0, 376)
  | .stretch, .s625 => (0, 576)
  | .stretch, .s525 => (0, 486)
  | .stretch, .s405 => (0, 376)

/-! ### Time (00_scope 4.5; log entry 5) -/

/-- One 1/65536 of the nominal period, in units of 1/65536 of 1/299 700 s: 299 700 / 50 or / 59.94 (R24, R114). -/
def offsetUnit : Family → Nat
  | .f50   => 5994
  | .f5994 => 5000

/-- The nominal output frame period of a family (R114). -/
def nominalPeriod (f : Family) : Nat := 65536 * offsetUnit f

/-- The length of a line period as a fraction (numerator, denominator) of the time unit (R104). -/
def linePeriodLength (f : Family) (r : Raster) : Nat × Nat := (nominalPeriod f, framePeriods r)

end Sys2Proof.Machine
end

