-- ==== Sys2Proof/Machine/TableData.lean ====
section
/-! DEFINITION. Chapter 9: the byte images of table entries, what their bytes mean, the built-in entries and
the validation of R149. -/

namespace Sys2Proof.Machine

open Sys2Proof

/-- Byte `i` of an image as a number, 0 beyond its end. -/
def byteAt (image : List Byte) (i : Nat) : Nat := (image.getD i 0).toNat

/-! ### Entries (R141) -/

/-- The size of a table's entries in bytes (R141). -/
def entrySize : TableEntry → Nat
  | .pattern _ => 11
  | .coef _    => 512
  | .curve _   => 32

/-- The table code of R162. -/
def tableCode : TableEntry → Nat
  | .pattern _ => 0
  | .coef _    => 1
  | .curve _   => 2

/-- The entry number. -/
def entryNumber : TableEntry → Nat
  | .pattern i => i.val
  | .coef i    => i.val
  | .curve i   => i.val

/-- The entry that a table code and an entry number name, when they name one (R146, R162). -/
def entryOf? (table number : Nat) : Option TableEntry :=
  match table with
  | 0 => if h : number < 8 then some (.pattern ⟨number, h⟩) else none
  | 1 => if h : number < 4 then some (.coef ⟨number, h⟩) else none
  | 2 => if h : number < 4 then some (.curve ⟨number, h⟩) else none
  | _ => none

/-- The built-in, read-only entries (R142). -/
def readOnlyEntry : TableEntry → Bool
  | .pattern i => decide (i.val ≤ 1)
  | .coef i    => i.val == 0
  | .curve i   => i.val == 0

/-- The active image of an entry. -/
def tableImage (t : Tables) : TableEntry → List Byte
  | .pattern i => t.patterns[i.val]
  | .coef i    => t.coefs[i.val]
  | .curve i   => t.curves[i.val]

/-- A swap replaces all bytes of one entry (R150). -/
def setTableImage (t : Tables) (e : TableEntry) (image : List Byte) : Tables :=
  match e with
  | .pattern i => { t with patterns := t.patterns.set i.val image i.isLt }
  | .coef i    => { t with coefs := t.coefs.set i.val image i.isLt }
  | .curve i   => { t with curves := t.curves.set i.val image i.isLt }

/-! ### Cadence patterns (R143) -/

/-- The length L of a pattern image (R143). -/
def patternLength (image : List Byte) : Nat := byteAt image 0

/-- The phase byte of phase `ph` (R143). -/
def phaseByte (image : List Byte) (ph : Nat) : Nat := byteAt image (1 + ph)

/-- The pair code of a phase: 1 NO, 2 YES, 3 ANY (R143). -/
def pairCode (image : List Byte) (ph : Nat) : Nat := phaseByte image ph % 4

/-- The repeat code of a phase: 1 NO, 2 YES, 3 ANY (R143). -/
def repeatCode (image : List Byte) (ph : Nat) : Nat := phaseByte image ph / 4 % 4

/-- The partner of a phase: bit 4 set is NEXT (R143). -/
def phasePartner (image : List Byte) (ph : Nat) : Partner :=
  if phaseByte image ph / 16 % 2 = 1 then .next else .prev

/-! ### Coefficients and curves (R144) -/

/-- A value of two bytes, low byte first, read as a signed number (R144). -/
def signed16 (lo hi : Nat) : Int :=
  let v : Int := (lo : Int) + 256 * (hi : Int)
  if v < 32768 then v else v - 65536

/-- Coefficient value number `n` of an image: phase-major, two bytes each (R144). -/
def coefValue (image : List Byte) (n : Nat) : Int :=
  signed16 (byteAt image (2 * n)) (byteAt image (2 * n + 1))

/-- Coefficient c_t of phase `ph` (R144). -/
def coefOf (image : List Byte) (ph t : Nat) : Int := coefValue image (4 * ph + t)

/-- The sum of the four values of a phase. -/
def phaseSum (image : List Byte) (ph : Nat) : Int :=
  coefOf image ph 0 + coefOf image ph 1 + coefOf image ph 2 + coefOf image ph 3

/-- Curve entry `i` (R144). -/
def curveWeight (image : List Byte) (i : Nat) : Nat := byteAt image i

/-! ### Validation (R149) -/

/-- Whether the length byte is allowed: 0 or 2 to 10 (R149). -/
def lengthAllowed (n : Nat) : Bool := n == 0 || (decide (2 ≤ n) && decide (n ≤ 10))

/-- Whether the phase byte of phase `ph` is at fault in an image of length L (R149). -/
def phaseFault (image : List Byte) (ph : Nat) : Bool :=
  if ph < patternLength image then
    pairCode image ph == 0 || repeatCode image ph == 0 || decide (32 ≤ phaseByte image ph)
  else
    phaseByte image ph != 0

/-- Whether every one of the 2L expectations is ANY (R149). -/
def everyAny (image : List Byte) : Bool :=
  (List.range (patternLength image)).all (fun ph => pairCode image ph == 3 && repeatCode image ph == 3)

/-- The offsets at which a pattern image is at fault (R149). -/
def patternFaults (image : List Byte) : List Nat :=
  (if lengthAllowed (patternLength image) then [] else [0]) ++
  ((List.range 10).filter (phaseFault image)).map (fun ph => 1 + ph) ++
  (if 2 ≤ patternLength image ∧ patternLength image ≤ 10 ∧ everyAny image = true then [1] else [])

/-- Whether a coefficient value lies outside -1024 to 1023 (R149). -/
def coefOutOfRange (v : Int) : Bool := decide (v < -1024) || decide (1023 < v)

/-- The offsets at which a coefficient image is at fault (R149). -/
def coefFaults (image : List Byte) : List Nat :=
  ((List.range 256).filter (fun n => coefOutOfRange (coefValue image n))).map (fun n => 2 * n) ++
  ((List.range 64).filter (fun ph => decide (phaseSum image ph ≠ 512))).map (fun ph => 8 * ph)

/-- Whether byte `i` of a curve image is at fault (R149). -/
def curveFault (image : List Byte) (i : Nat) : Bool :=
  decide (64 < curveWeight image i) || (i != 0 && decide (curveWeight image i < curveWeight image (i - 1)))

/-- The offsets at which a curve image is at fault (R149). -/
def curveFaults (image : List Byte) : List Nat := (List.range 32).filter (curveFault image)

/-- The offsets at which the image of an entry's table is at fault (R149). -/
def imageFaults (e : TableEntry) (image : List Byte) : List Nat :=
  match e with
  | .pattern _ => patternFaults image
  | .coef _    => coefFaults image
  | .curve _   => curveFaults image

/-- The fault offset: the lowest offset at which a fault is found (R149). -/
def faultOffset (e : TableEntry) (image : List Byte) : Option Nat := (imageFaults e image).min?

/-- An image passes its validation when it has the entry's size and no fault (R141, R149). -/
def entryValid (e : TableEntry) (image : List Byte) : Bool :=
  decide (image.length = entrySize e) && decide (imageFaults e image = [])

/-! ### The built-in and power-on entries (R142) -/

/-- The "2:2" pattern (R143). -/
def builtinPattern22 : List Byte := [2, 29, 14, 0, 0, 0, 0, 0, 0, 0, 0]

/-- The "3:2" pattern (R143). -/
def builtinPattern32 : List Byte := [5, 21, 6, 10, 21, 6, 0, 0, 0, 0, 0]

/-- An unused pattern entry (R142). -/
def unusedPattern : List Byte := [0, 0, 0, 0, 0, 0, 0, 0, 0, 0, 0]

/-- The built-in coefficient set: phase ph holds (0, 512 - 8 ph, 8 ph, 0) (R142, R144). -/
def builtinCoefs : List Byte :=
  (List.range 64).flatMap (fun ph =>
    [0, 0, BitVec.ofNat 8 (512 - 8 * ph), BitVec.ofNat 8 ((512 - 8 * ph) / 256),
     BitVec.ofNat 8 (8 * ph), BitVec.ofNat 8 (8 * ph / 256), 0, 0])

/-- The built-in curve: 16 i where that is below 64, and 64 otherwise (R142). -/
def builtinCurve : List Byte :=
  (List.range 32).map (fun i => BitVec.ofNat 8 (if 16 * i < 64 then 16 * i else 64))

/-- The active banks after power-on and pin reset (R142). -/
def builtinTables : Tables where
  patterns := #v[builtinPattern22, builtinPattern32, unusedPattern, unusedPattern,
                 unusedPattern, unusedPattern, unusedPattern, unusedPattern]
  coefs    := #v[builtinCoefs, builtinCoefs, builtinCoefs, builtinCoefs]
  curves   := #v[builtinCurve, builtinCurve, builtinCurve, builtinCurve]

end Sys2Proof.Machine
end

