-- ==== Sys2Proof/Machine/Flags.lean ====
section
/-! DEFINITION. Saturating counters (R173), event kinds as bits of the event mask (R162), the held status
(R170, R171), and the dropout list (R37). -/

namespace Sys2Proof.Machine

open Sys2Proof

/-- A counter 0 to 65535 advanced by `n`, saturating (R173). -/
def satAdd (x n : Nat) : Nat := min 65535 (x + n)

/-- The bit of an event kind in the event mask (R162). -/
def eventBit : EventKind → Nat
  | .inputLost        => 0
  | .inputRestored    => 1
  | .cadenceLocked    => 2
  | .cadenceLost      => 3
  | .slipDrop         => 4
  | .slipRepeat       => 5
  | .rateMismatch     => 6
  | .checksumFail     => 7
  | .directiveOverrun => 8
  | .eccSingle        => 9
  | .eccDouble        => 10
  | .refLost          => 11
  | .refLocked        => 12
  | .loadAbandoned    => 13
  | .probeHit         => 14
  | .restart          => 15

/-- The set of one kind. -/
def kindSet (k : EventKind) : BitVec 16 := BitVec.ofNat 16 (2 ^ eventBit k)

/-- Whether a kind is in a set of kinds. -/
def hasKind (set : BitVec 16) (k : EventKind) : Bool := set.getLsbD (eventBit k)

/-- The default event mask, {ECC_SINGLE} (R137, R162). -/
def defaultMask : BitVec 16 := 512

/-- The empty held status (R171). -/
def emptyHeld : Held := ⟨0, 0, 0⟩

/-- An event of kind `k` joins the held status (R170). -/
def joinHeld (h : Held) (k : EventKind) (field : Nat) : Held :=
  { kinds := h.kinds ||| kindSet k
    first := if h.kinds = 0 then field else h.first
    count := min 255 (h.count + 1) }

/-- The unmasked kinds of a held status (R171). -/
def unmaskedKinds (h : Held) (mask : BitVec 16) : BitVec 16 := h.kinds &&& ~~~mask

/-- The held status after a delivery: masked kinds stay with the same first field number and count 1, and
with no kinds left it is empty (R171). -/
def heldAfterDelivery (h : Held) (mask : BitVec 16) : Held :=
  if h.kinds &&& mask = 0 then emptyHeld else { h with kinds := h.kinds &&& mask, count := 1 }

/-- All counters 0 (R173). -/
def zeroStats : Stats := ⟨0, 0, 0, 0, 0, 0, 0, 0, 0, 0, 0, 0, 0, 0, 0⟩

/-- The fifteen values in the order of R173. -/
def statsList (t : Stats) : List Nat :=
  [t.fieldsReceived, t.fieldsDropped, t.fieldsRepeated, t.dropoutLines, t.damagedFields,
   t.parityDisputes, t.flywheelStarts, t.cadenceLocks, t.cadenceLosses, t.eccSingle, t.eccDouble,
   t.directivesDiscarded, t.relaysDiscarded, t.readUnderruns, t.fallbackLastField]

/-! ### The dropout list (R37) -/

/-- A new entry is placed after every entry whose line is below its own and before every entry above (R37). -/
def placeDropout (d : Dropout) : List Dropout → List Dropout
  | []      => [d]
  | x :: xs => if x.line < d.line then x :: placeDropout d xs else d :: x :: xs

/-- LOST offered for a line listed TIMING makes its cause LOST; any other offer leaves the entry (R37). -/
def recause (d : Dropout) (line : Nat) (cause : Cause) : Dropout :=
  if d.line = line ∧ d.cause = .timing ∧ cause = .lost then { d with cause := .lost } else d

/-- An offered entry is taken: the new list, or `none` when the list is full (R37). -/
def offerDropout (ds : List Dropout) (line : Nat) (cause : Cause) : Option (List Dropout) :=
  if ds.any (fun d => d.line == line) then some (ds.map (fun d => recause d line cause))
  else if ds.length < 16 then some (placeDropout ⟨line, cause⟩ ds)
  else none

/-- Whether a line is listed. -/
def isListed (ds : List Dropout) (line : Nat) : Bool := ds.any (fun d => d.line == line)

end Sys2Proof.Machine
end

