-- ==== Sys2Proof/Machine/Operands.lean ====
section
/-! DEFINITION. Packets as they appear in blanking (R155, R156, R167), the arguments of each directive
(R162) and the layouts of answers (R160). -/

namespace Sys2Proof.Machine

open Sys2Proof

/-! ### Numbers in payloads: low byte first (R155) -/

/-- A number as one byte. -/
def byteOf (n : Nat) : Byte := BitVec.ofNat 8 n

/-- A number as two bytes, low byte first. -/
def bytes2 (n : Nat) : List Byte := [byteOf n, byteOf (n / 256)]

/-- A number as four bytes, low byte first. -/
def bytes4 (n : Nat) : List Byte :=
  [byteOf n, byteOf (n / 256), byteOf (n / 65536), byteOf (n / 16777216)]

/-- One byte of a payload. -/
def arg1 (p : List Byte) (i : Nat) : Nat := byteAt p i

/-- Two bytes of a payload, low byte first. -/
def arg2 (p : List Byte) (i : Nat) : Nat := byteAt p i + 256 * byteAt p (i + 1)

/-! ### The packet (R155, R156) -/

/-- The marker words (R155). -/
def marker1 : LineWord := 0x2AA
/-- The second marker word (R155). -/
def marker2 : LineWord := 0x155

/-- The word that carries a byte: 256 plus the byte (R155). -/
def byteWord (b : Byte) : LineWord := BitVec.ofNat 10 (256 + b.toNat)

/-- Whether a word carries a byte: bit 8 at 1 and bit 9 at 0 (R155, R156). -/
def carriesByte (w : LineWord) : Bool := w.getLsbD 8 && !w.getLsbD 9

/-- The byte of a word: its low eight bits (R155). -/
def wordByte (w : LineWord) : Byte := w.truncate 8

/-- The sum of bytes as a number. -/
def byteSum (bs : List Byte) : Nat := (bs.map BitVec.toNat).sum

/-- The bytes of a packet from address to checksum, when the packet passes every check of R156. -/
def checkedPacket (ws : List LineWord) : Option (List Byte) :=
  match ws with
  | _ :: w1 :: w2 :: addr :: kind :: tag :: len :: rest =>
    let n := (wordByte len).toNat
    let body := addr :: kind :: tag :: len :: rest.take (n + 1)
    if w1 = marker2 ∧ w2 = marker1 ∧ body.all carriesByte = true ∧ (wordByte addr).toNat ≤ 15 ∧ n ≤ 192
        ∧ n + 1 ≤ rest.length ∧ byteSum (body.map wordByte) % 256 = 0
    then some (body.map wordByte) else none
  | _ => none

/-- The address byte of a checked packet. -/
def packetAddress (bs : List Byte) : Nat := byteAt bs 0

/-- The directive a checked packet carries: kind, tag and payload (R157). -/
def packetDirective (bs : List Byte) : Directive :=
  { kind := bs.getD 1 0, tag := bs.getD 2 0, payload := (bs.drop 4).take (byteAt bs 3) }

/-- The checksum byte of the bytes before it: it makes the sum a multiple of 256 (R155). -/
def checksum (bs : List Byte) : Byte := byteOf (256 - byteSum bs % 256)

/-- Bytes from address to payload, completed by their checksum. -/
def withChecksum (bs : List Byte) : List Byte := bs ++ [checksum bs]

/-- The words of a packet: marker, then one word a byte (R155). -/
def packetWords (bs : List Byte) : List LineWord := marker1 :: marker2 :: marker1 :: bs.map byteWord

/-! ### Codes of answers (R160) -/

/-- Answer codes (R160). -/
def codeByte : AnswerCode → Byte
  | .done    => 0
  | .busy    => 1
  | .refused => 2
  | .aborted => 3

/-- Refusal reasons (R160); 0 with the other codes. -/
def reasonByte : Option Reason → Byte
  | none               => 0
  | some .badArgument  => 1
  | some .rateMismatch => 2
  | some .readOnly     => 3
  | some .sequence     => 4
  | some .noLoad       => 5
  | some .incomplete   => 6
  | some .validation   => 7
  | some .unknownKind  => 8

/-- The bytes of a report's packet, address to checksum (R167). -/
def reportBytes (device : BitVec 4) (r : Report) : List Byte :=
  match r with
  | .answer tag kind code reason data =>
    withChecksum ([device.zeroExtend 8, 128, tag, byteOf (3 + data.length)]
      ++ [kind, codeByte code, reasonByte reason] ++ data)
  | .event kinds field count =>
    withChecksum ([device.zeroExtend 8, 129, 0, 7] ++ bytes2 kinds.toNat ++ bytes4 field ++ [byteOf count])
  | .relay bytes => bytes

/-- The words of a report's packet (R155, R167). -/
def reportWords (device : BitVec 4) (r : Report) : List LineWord := packetWords (reportBytes device r)

/-! ### Directives (R162) -/

/-- The directive a kind byte names (R162). -/
def dirKind? (kind : Byte) : Option DirKind :=
  match kind.toNat with
  | 1  => some .probe
  | 2  => some .setFormat
  | 3  => some .setParameters
  | 4  => some .start
  | 5  => some .halt
  | 6  => some .resetChannel
  | 7  => some .readStats
  | 16 => some .loadBegin
  | 17 => some .loadSegment
  | 18 => some .loadCommit
  | 19 => some .loadAbort
  | 20 => some .readTable
  | 32 => some .deviceStatus
  | 33 => some .clearErrors
  | 34 => some .setDeviceOptions
  | 35 => some .armProbe
  | 36 => some .readProbe
  | 47 => some .restartDevice
  | _  => none

/-- The bytes of a directive's arguments (R162); LOAD SEGMENT needs its two offset bytes. -/
def argBytes : DirKind → Nat
  | .probe            => 0
  | .setFormat        => 11
  | .setParameters    => 15
  | .start            => 0
  | .halt             => 0
  | .resetChannel     => 0
  | .readStats        => 1
  | .loadBegin        => 2
  | .loadSegment      => 2
  | .loadCommit       => 0
  | .loadAbort        => 0
  | .readTable        => 5
  | .deviceStatus     => 0
  | .clearErrors      => 0
  | .setDeviceOptions => 1
  | .armProbe         => 8
  | .readProbe        => 0
  | .restartDevice    => 0

/-- Standard codes (R162). -/
def standardOf? (n : Nat) : Option Standard :=
  match n with
  | 0 => some .s625
  | 1 => some .s525
  | 2 => some .s405
  | _ => none

/-- Raster codes (R162). -/
def rasterOf? (n : Nat) : Option Raster :=
  match n with
  | 0 => some .r1080
  | 1 => some .r720
  | _ => none

/-- Aspect codes (R162). -/
def aspectOf? (n : Nat) : Option Aspect :=
  match n with
  | 0 => some .pillar
  | 1 => some .crop149
  | 2 => some .stretch
  | _ => none

/-- Cadence policy codes (R162). -/
def policyOf? (n : Nat) : Option Policy :=
  match n with
  | 0 => some .filmAllowed
  | 1 => some .videoOnly
  | _ => none

/-- Loss action codes (R162). -/
def lossActionOf? (n : Nat) : Option LossAction :=
  match n with
  | 0 => some .hold
  | 1 => some .black
  | _ => none

/-- Condition codes (R162). -/
def conditionOf? (n : Nat) : Option Condition :=
  match n with
  | 0 => some .any
  | 1 => some .film
  | 2 => some .video
  | 3 => some .fallback
  | 4 => some .motionAtLeast
  | _ => none

/-- The code of a condition (R164). -/
def conditionCode : Condition → Nat
  | .any           => 0
  | .film          => 1
  | .video         => 2
  | .fallback      => 3
  | .motionAtLeast => 4

/-- A set number above 3 is clamped to 3 (R10, R137). -/
def clampSet (n : Nat) : Fin 4 := ⟨min n 3, by omega⟩

/-- The format a SET FORMAT payload gives, clamped as R10 states; none when a code is outside its list. -/
def formatOf? (p : List Byte) : Option Format := do
  let standard ← standardOf? (arg1 p 0)
  let raster ← rasterOf? (arg1 p 1)
  let aspect ← aspectOf? (arg1 p 2)
  return {
    standard, raster, aspect
    vset := clampSet (arg1 p 3)
    hset := clampSet (arg1 p 4)
    fill := ⟨legalLuma (arg2 p 5), legalChroma (arg2 p 7), legalChroma (arg2 p 9)⟩ }

/-- The parameter set of a SET PARAMETERS payload, clamped as R137 states: field values, frame values, event
mask; none when the cadence policy or the loss action is outside its list. -/
def parametersOf? (p : List Byte) : Option (FieldParams × FrameParams × BitVec 16) := do
  let policy ← policyOf? (arg1 p 8)
  let lossAction ← lossActionOf? (arg1 p 12)
  return (
    { noise := arg1 p 0, comb := arg1 p 1, repeatLimit := arg2 p 2, pairLimit := arg2 p 4
      confirm := clampNat 1 15 (arg1 p 6), hold := clampNat 0 15 (arg1 p 7), policy },
    { curve := clampSet (arg1 p 9), fallbackLimit := arg2 p 10, lossAction },
    BitVec.ofNat 16 (arg2 p 13))

/-- The arm record of an ARM PROBE payload (R162, R164): none when the channel exceeds 3, the column exceeds
719 or the condition is outside its list; m is clamped to 1023. The frame row is checked by its directive. -/
def armOf? (p : List Byte) : Option Arm := do
  let chan ← chanOfNat? (arg1 p 0)
  let cond ← conditionOf? (arg1 p 5)
  if 719 < arg2 p 3 then none
  else return { chan, row := arg2 p 1, column := arg2 p 3, cond, m := min 1023 (arg2 p 6) }

/-! ### Codes in answers (R163, R164, R176) -/

/-- Channel state codes (R163). -/
def chanStateCode : ChanState → Nat
  | .stopped  => 0
  | .starting => 1
  | .running  => 2
  | .halting  => 3
  | .lost     => 4

/-- The name of a tracking state. -/
def trackName : Track → TrackName
  | .search _    => .search
  | .locked _ _  => .locked
  | .hold _ _ _  => .hold

/-- Tracker state codes (R163). -/
def trackCode : TrackName → Nat
  | .search => 0
  | .locked => 1
  | .hold   => 2

/-- The pattern and phase PROBE returns (R60). -/
def trackPattern : Track → Option (Nat × Nat)
  | .search none      => none
  | .search (some x)  => some (x.pat.val, x.phase)
  | .locked pat ph    => some (pat.val, ph)
  | .hold pat ph _    => some (pat.val, ph)

/-- RTU state codes (R176). -/
def rtuCode : RtuState → Nat
  | .locked50   => 0
  | .locked5994 => 1
  | .freeRun    => 2

/-- Family codes (R176). -/
def familyCode : Family → Nat
  | .f50   => 0
  | .f5994 => 1

/-- Reset cause codes (R176). -/
def causeCode : ResetCause → Nat
  | .powerOn          => 0
  | .resetPin         => 1
  | .restartDirective => 2

/-- Error Capture state codes (R176). -/
def captureCode : CaptureState → Nat
  | .clear  => 0
  | .single => 1
  | .double => 2

/-- Captured mode codes (R164). -/
def modeCode : Decision → Nat
  | .video      => 0
  | .film .prev => 1
  | .film .next => 2

/-- Probe state codes (R164). -/
def probeCode : Probe → Nat
  | .idle         => 0
  | .armed _      => 1
  | .captured _ _ => 2

/-- A signed 16-bit number in two's complement (R163). -/
def twos16 (x : Int) : Nat := (x % 65536).toNat

end Sys2Proof.Machine
end

