-- ==== Sys2Proof/Machine/ResetValues.lean ====
section
/-! DEFINITION. The values each block's records take after a reset, from which State.reset and the resets are made. -/

namespace Sys2Proof.Machine

open Sys2Proof

/-- The format defaults (R9). -/
def defaultFormat : Format := ⟨.s625, .r1080, .pillar, 0, 0, blackColour⟩

/-- The field group's defaults (R137). -/
def defaultField : FieldParams := ⟨12, 24, 200, 300, 5, 3, .filmAllowed⟩

/-- The frame group's defaults (R137). -/
def defaultFrame : FrameParams := ⟨0, 2000, .hold⟩

/-- The receiver context after a reset (R29); the cleared items that R29 gives no value are log entry 13's. -/
def Receiver.reset : Receiver :=
  { state := .seeking, lineNo := 0, fieldStd := .s625, accepted := false, vote := [], voteClosed := true,
    prevParity := none, lineValid := false, assembly := [], buffer := [], lossCount := 0, latestOffset := none, drift := 0 }

/-- The cadence context and measurement store after a clear (R82). -/
def Cadence.clear : Cadence := ⟨.search none, [], none, []⟩

/-- The channel context after power-on and pin reset (R140). -/
def Control.reset : Control :=
  { state := .stopped, format := defaultFormat, priorFormat := none, field := defaultField,
    frame := defaultFrame, pendingField := none, pendingFrame := none, lastOutput := none, halt := none }

/-- The EVENT every report queue holds after a device reset (R176). -/
def restartEvent : Report := .event (kindSet .restart) 0 1

/-- The Report Unit's part of a channel after power-on and pin reset (R176, R177). -/
def ReportPort.reset : ReportPort := ⟨[restartEvent], [], emptyHeld, defaultMask⟩

/-- A channel after power-on and pin reset. -/
def Channel.reset : Channel :=
  { recv := Receiver.reset, fieldCount := 0, ring := [], cad := Cadence.clear, engine := none,
    scaler := none, ended := none, out := none, ctl := Control.reset, pku := ⟨[], [], 0⟩, rep := ReportPort.reset,
    stats := zeroStats, lossDone := false, haltDone := false }

/-- The arbiter after a device reset (R51). -/
def Arbiter.reset : Arbiter := ⟨none, .c3, .c3⟩

/-- The cleared Error Capture record (R59). -/
def ErrorCapture.clear : ErrorCapture := ⟨.clear, .c0, 0, 0, 0, 0, false⟩

/-- The RTU after power-on and pin reset at time `t` (R122). R122 has no row for the latest output frame start of
R114: absent, as R114 allows (DESIGN CHOICE, log entry 26). -/
def Rtu.resetAt (t : Nat) : Rtu := ⟨.freeRun, .f50, none, none, t + nominalPeriod .f50⟩

end Sys2Proof.Machine
end

