-- ==== Sys2Proof/Machine/State.lean ====
section
/-! DEFINITION. The whole state of the part as plain data, its reasons to stop, and its value after
power-on reset. -/

namespace Sys2Proof.Machine

open Sys2Proof

/-- The state. `inhibitBefore` holds the values that the option inhibit single capture had before each SET DEVICE
OPTIONS taken during the read burst in flight, for the words read before it (R58). The last five fields are the model's own: `lossDone`-like work flag of the Table Loader for
the coming output frame start (log 2), the time (log 5), the number of output frame starts issued (log 2),
the number of free values drawn (log 15), the queue of commands (log 7). -/
structure State where
  chans          : Quad Channel
  dram           : List Host.Cell
  dramErrs       : List (Nat × WordError)
  arbiter        : Arbiter
  capture        : ErrorCapture
  inhibitSingle  : Bool
  inhibitBefore  : List Bool
  tables         : Tables
  loader         : LoadState
  shadow         : List Byte
  rtu            : Rtu
  startSeen      : Bool
  probe          : Probe
  resetCause     : ResetCause
  deviceAddress  : BitVec 4
  loaderDone     : Bool
  now            : Nat
  startNo        : Nat
  draws          : Nat
  pending        : List Instr
  deriving DecidableEq, Repr

/-- The spec describes no stop of the part: a fault is raised by nothing. -/
inductive Fault where
  deriving DecidableEq, Repr

/-- Reasons to refuse a command. -/
inductive Refusal where
  /-- Raised by an arm of `exec` whose command has no meaning yet: no arm does. Safe: the model stops. -/
  | notModelled (mnemonic : String)
  deriving DecidableEq, Repr

/-- The machine right after power-on reset (04 section 4.6, R29, R47, R59, R82, R103, R122, R140, R142, R154,
R158, R176, R177). The address straps read 0 (log entry 14); the DRAM lists nothing (log entry 11). -/
def State.reset : State :=
  { chans := ⟨Channel.reset, Channel.reset, Channel.reset, Channel.reset⟩
    dram := [], dramErrs := []
    arbiter := Arbiter.reset, capture := ErrorCapture.clear, inhibitSingle := false, inhibitBefore := []
    tables := builtinTables, loader := .idle, shadow := []
    rtu := Rtu.resetAt 0, startSeen := false
    probe := .idle, resetCause := .powerOn, deviceAddress := 0
    loaderDone := false, now := 0, startNo := 0, draws := 0, pending := [] }

end Sys2Proof.Machine
end

