-- ==== Sys2Proof/Machine/Ops.lean ====
section
/-! DEFINITION. The named operations over the state: a channel's record, the report queue (R166), events
(R170), answers (R160), the ring as the one list of field records (R32, R62), and the DRAM as bytes (R48, R49). -/

namespace Sys2Proof.Machine

open Sys2Proof

/-! ### The channels of a state -/

/-- The record of one channel. -/
def quadGet {α : Type} (q : Quad α) : Chan → α
  | .c0 => q.at0
  | .c1 => q.at1
  | .c2 => q.at2
  | .c3 => q.at3

/-- One of four replaced. -/
def quadSet {α : Type} (q : Quad α) (c : Chan) (x : α) : Quad α :=
  match c with
  | .c0 => { q with at0 := x }
  | .c1 => { q with at1 := x }
  | .c2 => { q with at2 := x }
  | .c3 => { q with at3 := x }

/-- Channel `c` of the state. -/
def State.ch (s : State) (c : Chan) : Channel := quadGet s.chans c

/-- The state with channel `c` replaced. -/
def State.setCh (s : State) (c : Chan) (x : Channel) : State := { s with chans := quadSet s.chans c x }

/-- The state with channel `c` changed by `f`. -/
def State.modCh (s : State) (c : Chan) (f : Channel → Channel) : State := s.setCh c (f (s.ch c))

/-- An operation on each channel, in ascending order. -/
def eachChan (f : Chan → State → State) (s : State) : State := f .c3 (f .c2 (f .c1 (f .c0 s)))

/-! ### Report queue (R161, R166) -/

/-- Whether a report is an EVENT or a RELAY (R166). -/
def isEventOrRelay : Report → Bool
  | .event _ _ _      => true
  | .relay _          => true
  | .answer _ _ _ _ _ => false

/-- EVENT and RELAY reports of a queue. -/
def eventCount (q : List Report) : Nat := q.countP isEventOrRelay

/-- Whether the load is committed and owes channel `c` its deferred answer (R145, R161). -/
def owesCommit (l : LoadState) (c : Chan) : Bool :=
  match l with
  | .commitPending owner _ _ _ => decide (owner = c)
  | _ => false

/-- Places of channel `c` reserved for the deferred answers it owes (R161). -/
def State.reserved (s : State) (c : Chan) : Nat :=
  (if (s.ch c).ctl.halt.isSome then 1 else 0) + (if owesCommit s.loader c then 1 else 0)

/-- Free places of channel `c`: of the 8, those that hold no report and are not reserved (R160). -/
def State.freePlaces (s : State) (c : Chan) : Nat := 8 - ((s.ch c).rep.queue.length + s.reserved c)

/-- Room for an EVENT or RELAY (R166), with `held` further places judged as taken (R171). -/
def State.eventRoom (s : State) (c : Chan) (held : Nat) : Bool :=
  decide (held < s.freePlaces c) && decide (eventCount (s.ch c).rep.queue < 6)

/-- A report joins the end of the queue. -/
def pushReport (r : Report) (ch : Channel) : Channel :=
  { ch with rep := { ch.rep with queue := ch.rep.queue ++ [r] } }

/-- An event of kind `k` with its field number is raised on channel `c` (R170). -/
def raise (c : Chan) (k : EventKind) (field : Nat) (s : State) : State :=
  if hasKind (s.ch c).rep.mask k = false ∧ (s.ch c).rep.held.kinds = 0 ∧ s.eventRoom c 0 = true then
    s.modCh c (pushReport (.event (kindSet k) field 1))
  else
    s.modCh c (fun ch => { ch with rep := { ch.rep with held := joinHeld ch.rep.held k field } })

/-- An event on each channel that carries that channel's field count (R169: REF_LOST, REF_LOCKED). -/
def raiseAll (k : EventKind) (s : State) : State :=
  eachChan (fun c t => raise c k (t.ch c).fieldCount t) s

/-- The held status is delivered as one EVENT, when it has unmasked kinds and there is room (R171). -/
def deliverHeld (c : Chan) (places : Nat) (s : State) : State :=
  let ch := s.ch c
  let kinds := unmaskedKinds ch.rep.held ch.rep.mask
  if kinds ≠ 0 ∧ s.eventRoom c places = true then
    s.modCh c (fun ch =>
      { pushReport (.event kinds ch.rep.held.first ch.rep.held.count) ch with
        rep := { (pushReport (.event kinds ch.rep.held.first ch.rep.held.count) ch).rep with
          held := heldAfterDelivery ch.rep.held ch.rep.mask } })
  else s

/-- An ANSWER joins channel `c`'s report queue (R160). -/
def answer (c : Chan) (tag kind : Byte) (code : AnswerCode) (reason : Option Reason) (data : List Byte)
    (s : State) : State :=
  s.modCh c (pushReport (.answer tag kind code reason data))

/-- The answer to a directive taken: DONE with data. -/
def answerDone (c : Chan) (d : Directive) (data : List Byte) (s : State) : State :=
  answer c d.tag d.kind .done none data s

/-- The answer to a directive taken: BUSY. -/
def answerBusy (c : Chan) (d : Directive) (s : State) : State := answer c d.tag d.kind .busy none [] s

/-- The answer to a directive taken: REFUSED with its reason and data. -/
def answerRefused (c : Chan) (d : Directive) (r : Reason) (data : List Byte) (s : State) : State :=
  answer c d.tag d.kind .refused (some r) data s

/-- A relay is appended when there is room, and else discarded and counted (R172). -/
def offerRelay (c : Chan) (bytes : List Byte) (s : State) : State :=
  if s.eventRoom c 0 = true then s.modCh c (pushReport (.relay bytes))
  else s.modCh c (fun ch =>
    { ch with stats := { ch.stats with relaysDiscarded := satAdd ch.stats.relaysDiscarded 1 } })

/-! ### The ring (R30, R32, R62) -/

/-- A record of the ring by its field number. -/
def findRecord (ring : List FieldRecord) (num : Nat) : Option FieldRecord :=
  ring.find? (fun r => r.num == num)

/-- The FILLING record, of which there is at most one (R32). -/
def fillingRecord (ring : List FieldRecord) : Option FieldRecord :=
  ring.find? (fun r => decide (r.state = .filling))

/-- A change of the records with a field number. -/
def modRecord (num : Nat) (f : FieldRecord → FieldRecord) (ring : List FieldRecord) : List FieldRecord :=
  ring.map (fun r => if r.num = num then f r else r)

/-- A change of the FILLING record. -/
def modFilling (f : FieldRecord → FieldRecord) (ring : List FieldRecord) : List FieldRecord :=
  ring.map (fun r => if r.state = .filling then f r else r)

/-- The burst in flight when its record leaves the ring: a read of it offers no dropout entry (R46, R52). -/
def noteRemoval (c : Chan) (ring : List FieldRecord) (b : Option Burst) : Option Burst :=
  match b with
  | some (.read c' slot line role num live present) =>
    if c' = c then some (.read c' slot line role num live (present && (findRecord ring num).isSome)) else b
  | _ => b

/-- The ring of channel `c` becomes `ring`: a list from which records have been removed. Images of records
that have left are discarded (R62), and the burst in flight learns that its record has gone. -/
def removeFromRing (c : Chan) (ring : List FieldRecord) (s : State) : State :=
  { s.modCh c (fun ch =>
      { ch with
        ring := ring
        cad := { ch.cad with images := ch.cad.images.filter (fun i => (findRecord ring i.num).isSome) } })
    with arbiter := { s.arbiter with burst := noteRemoval c ring s.arbiter.burst } }

/-- An offer of a dropout to one record (R37): the record, and whether its damaged flag is newly set (R20). -/
def offerToRecord (line : Nat) (cause : Cause) (r : FieldRecord) : FieldRecord × Bool :=
  match offerDropout r.dropouts line cause with
  | some ds => ({ r with dropouts := ds }, false)
  | none    => ({ r with damaged := true }, !r.damaged)

/-- A dropout is offered to the record with a field number; a flag newly set counts `damaged_fields` (R20, R38). -/
def offerToRing (num line : Nat) (cause : Cause) (ch : Channel) : Channel :=
  match findRecord ch.ring num with
  | none   => ch
  | some r =>
    { ch with
      ring := modRecord num (fun x => (offerToRecord line cause x).1) ch.ring
      stats := if (offerToRecord line cause r).2 then
          { ch.stats with damagedFields := satAdd ch.stats.damagedFields 1 } else ch.stats }

/-! ### The DRAM as bytes (R48, R49) -/

/-- A byte of the DRAM; an address that is not listed reads 0 (log entry 11). -/
def dramRead (m : List Host.Cell) (a : Nat) : Byte :=
  match m.find? (fun x => x.1 == a) with
  | some x => x.2
  | none   => 0

/-- The cells of bytes stored from an address on, without those that read as an unlisted one. -/
def blockCells (base : Nat) : List Byte → List Host.Cell
  | []      => []
  | b :: bs => if b = 0 then blockCells (base + 1) bs else (base, b) :: blockCells (base + 1) bs

/-- Bytes are stored from an address on; the list keeps its canonical form. -/
def dramWrite (m : List Host.Cell) (base : Nat) (bytes : List Byte) : List Host.Cell :=
  m.filter (fun x => decide (x.1 < base)) ++ blockCells base bytes ++
    m.filter (fun x => decide (base + bytes.length ≤ x.1))

/-- `n` bytes read from an address on. -/
def dramBlock (m : List Host.Cell) (base n : Nat) : List Byte :=
  let part := m.filter (fun x => decide (base ≤ x.1) && decide (x.1 < base + n))
  (List.range n).map (fun i => dramRead part (base + i))

/-- The canonical form: addresses strictly rising, no entry equal to what an unlisted address reads as. -/
abbrev Memory.wf (m : List Host.Cell) : Prop :=
  m.Pairwise (fun x y => x.1 < y.1) ∧ ∀ x ∈ m, x.2 ≠ 0

/-- The stored error of the word at an address: what its test yields when it is not the word as written. -/
def storedError (errs : List (Nat × WordError)) (a : Nat) : Option WordError :=
  (errs.find? (fun x => x.1 == a)).map Prod.snd

/-- An error is stored for the word at an address, in ascending place. -/
def putError (errs : List (Nat × WordError)) (a : Nat) (e : WordError) : List (Nat × WordError) :=
  errs.filter (fun x => decide (x.1 < a)) ++ (a, e) :: errs.filter (fun x => decide (a < x.1))

/-- A write computes fresh check bits: the words from an address on, `n` bytes, hold no error (R48, R52). -/
def clearErrorsAt (errs : List (Nat × WordError)) (base n : Nat) : List (Nat × WordError) :=
  errs.filter (fun x => decide (x.1 < base) || decide (base + n ≤ x.1))

/-- Where line place `k` of slot `slot` of channel `c` begins (R33, R49). -/
def lineAddress (c : Chan) (slot : Fin 8) (k : Nat) : Nat :=
  (chanNat c * 8 + slot.val) * 1048576 + 1920 * k

/-- The address of word `w` of a line place (R49). -/
def wordAddress (c : Chan) (slot : Fin 8) (k w : Nat) : Nat := lineAddress c slot k + 8 * w

/-- The eight bytes of a word, low byte first (log entry 10). -/
def wordBytes (v : Nat) : List Byte :=
  [byteOf v, byteOf (v / 256), byteOf (v / 65536), byteOf (v / 16777216), byteOf (v / 4294967296),
   byteOf (v / 1099511627776), byteOf (v / 281474976710656), byteOf (v / 72057594037927936)]

/-- The word of eight bytes, low byte first (log entry 10). -/
def bytesWord : List Byte → Nat
  | []      => 0
  | b :: bs => b.toNat + 256 * bytesWord bs

/-- Six sample words in the 60 low data bits, the earliest lowest, the top four bits zero (R48). -/
def packSix (a b c d e f : Nat) : Nat :=
  a % 1024 + 1024 * (b % 1024 + 1024 * (c % 1024 + 1024 * (d % 1024 + 1024 * (e % 1024 + 1024 * (f % 1024)))))

/-- The six sample words of a data word; the top four bits are ignored (R48). -/
def unpackSix (v : Nat) : List Nat :=
  [v % 1024, v / 1024 % 1024, v / 1048576 % 1024, v / 1073741824 % 1024, v / 1099511627776 % 1024,
   v / 1125899906842624 % 1024]

/-- The bytes of a line of sample words, six to a protected word (R48). -/
def packLine : List Nat → List Byte
  | a :: b :: c :: d :: e :: f :: rest => wordBytes (packSix a b c d e f) ++ packLine rest
  | _ => []

/-- A write burst writes its line place with fresh check bits (R52). -/
def writeLine (c : Chan) (slot : Fin 8) (k : Nat) (words : List Nat) (s : State) : State :=
  let base := lineAddress c slot k
  { s with
    dram := dramWrite s.dram base (packLine words)
    dramErrs := clearErrorsAt s.dramErrs base (packLine words).length }

end Sys2Proof.Machine
end

