-- ==== Sys2Proof/Machine/Memory.lean ====
section
/-! DEFINITION. Chapter 4: the burst arbiter (R50, R51), write grants (R21, R22, R61), and the completion of
write bursts (R52). Read bursts complete in Engine.lean, with the engine that takes the line. -/

namespace Sys2Proof.Machine

open Sys2Proof

/-! ### Requests (R50) -/

/-- The line place of a turn of the read plan: three turns to a line place (R85). -/
def turnLine (turn : Nat) : Nat := turn / 3

/-- The source of a turn: the centre first, then the predecessor, then the successor (R85). -/
def turnRole (turn : Nat) : Role :=
  match turn % 3 with
  | 0 => .centre
  | 1 => .pred
  | _ => .succ

/-- A source of a frame. -/
def frameSource (f : Frame) : Role → Option SourceRef
  | .centre => some f.centre
  | .pred   => f.pred
  | .succ   => f.succ

/-- A channel's write request is pending whenever its line buffer holds a line (R50); it names the slot of
the field's record. -/
def writeRequest (ch : Channel) : Option (Fin 8 × BufLine) :=
  match ch.recv.buffer, fillingRecord ch.ring with
  | l :: _, some r => some (r.slot, l)
  | _, _ => none

/-- A channel's read request: its engine's next line, when pending (R50). -/
def readRequest (ch : Channel) : Option (SourceRef × Role × Nat) :=
  match ch.engine with
  | some f =>
    if f.read = .pending then (frameSource f (turnRole f.turn)).map (fun r => (r, turnRole f.turn, turnLine f.turn))
    else none
  | none => none

/-! ### Grants (R51, R21, R22, R61) -/

/-- The 360 luma samples at even positions of a line: Y0, Y2, … Y718 (R61). -/
def evenLuma (words : List Nat) : List Nat := (List.range 360).map (fun j => words.getD (4 * j + 1) 64)

/-- The line is copied into its field's image and marked written (R61). -/
def copyToImage (num k : Nat) (words : List Nat) (i : Image) : Image :=
  if i.num = num then { i with lines := i.lines ++ [(k, evenLuma words)] } else i

/-- A write grant: the oldest waiting line leaves the buffer and counts as stored (R21, R22), and the
tracker copies its luma (R61). -/
def grantWriteTo (ch : Channel) : Channel :=
  match ch.recv.buffer, fillingRecord ch.ring with
  | l :: rest, some r =>
    { ch with
      recv := { ch.recv with buffer := rest }
      ring := modFilling (fun x => { x with stored := x.stored + 1 }) ch.ring
      cad := { ch.cad with images := ch.cad.images.map (copyToImage r.num l.line l.words) } }
  | _, _ => ch

/-- A read grant: the engine's read is in flight. -/
def grantReadTo (ch : Channel) : Channel :=
  { ch with engine := ch.engine.map (fun f => { f with read := .inFlight }) }

/-- The first channel, in rotation after the last write channel, with a pending write request (R51). -/
def nextWriter (s : State) : Option (Chan × Fin 8 × BufLine) :=
  (rotation s.arbiter.lastWrite).findSome? (fun c => (writeRequest (s.ch c)).map (fun r => (c, r.1, r.2)))

/-- The first channel, in rotation after the last read channel, with a pending read request (R51). -/
def nextReader (s : State) : Option (Chan × SourceRef × Role × Nat) :=
  (rotation s.arbiter.lastRead).findSome?
    (fun c => (readRequest (s.ch c)).map (fun r => (c, r.1, r.2.1, r.2.2)))

/-- An IDLE arbiter grants a pending request: writes before reads, by rotation within the class (R51). -/
def arbitrate (s : State) : State :=
  match s.arbiter.burst with
  | some _ => s
  | none =>
    match nextWriter s with
    | some (c, slot, l) =>
      { s.modCh c grantWriteTo with
        arbiter := { s.arbiter with burst := some (.write c slot l.line l.words), lastWrite := c } }
    | none =>
      match nextReader s with
      | some (c, src, role, k) =>
        { s.modCh c grantReadTo with
          arbiter := { s.arbiter with burst := some (.read c src.slot k role src.num true true), lastRead := c } }
      | none => s

/-- Whether a read burst is in flight. -/
def isRead (b : Option Burst) : Bool :=
  match b with
  | some (.read _ _ _ _ _ _ _) => true
  | some (.write _ _ _ _)      => false
  | none                       => false

/-- No burst is in flight. -/
def freeArbiter (s : State) : State := { s with arbiter := { s.arbiter with burst := none } }

/-- The burst in flight has ended; the arbiter grants a pending request or goes IDLE (R51). -/
def burstEnded (s : State) : State := arbitrate (freeArbiter s)

/-- WRITE_BURST_COMPLETE (R52): the line place holds the new line, whatever became of the record, and the
arbiter grants a pending request or goes IDLE. With no write burst in flight nothing completes. -/
def execWriteBurstComplete (s : State) : Host.Outcome State Fault Refusal :=
  match s.arbiter.burst with
  | some (.write c slot k words) => .next (burstEnded (writeLine c slot k words s))
  | _ => .next s

end Sys2Proof.Machine
end

