-- ==== Sys2Proof/Machine/Cadence.lean ====
section
/-! DEFINITION. Chapter 5: the measures, the symbol, pattern matching, the tracking states and the field
end of the Cadence Tracker. -/

namespace Sys2Proof.Machine

open Sys2Proof

/-! ### The measures (R65 to R67) -/

/-- The absolute difference of two sample values (00_scope 4.2). -/
def absDiff (a b : Nat) : Nat := (a - b) + (b - a)

/-- Whether sample `p` stands out from both `u` and `d` by more than the comb threshold (R67, R98). -/
def combs (k p u d : Nat) : Bool :=
  (decide (u + k < p) && decide (d + k < p)) || (decide (p + k < u) && decide (p + k < d))

/-- The image of a record, when the measurement store holds one (R61). -/
def imageOf (images : List Image) (num : Nat) : Option Image := images.find? (fun i => i.num == num)

/-- The luma of line `k` when the line is usable for measurement: written in the image and not listed (R65). -/
def usableLine (i : Image) (r : FieldRecord) (k : Nat) : Option (List Nat) :=
  if isListed r.dropouts k then none else (i.lines.find? (fun x => x.1 == k)).map Prod.snd

/-- Positions at which two lines differ by more than the noise threshold (R66). -/
def countDiffs (noise : Nat) : List Nat → List Nat → Nat
  | a :: as, b :: bs => (if noise < absDiff a b then 1 else 0) + countDiffs noise as bs
  | _, _ => 0

/-- Combs of a triple: `p` of the predecessor between `u` and `d` of the field (R67). -/
def countCombs (k : Nat) : List Nat → List Nat → List Nat → Nat
  | p :: ps, u :: us, d :: ds => (if combs k p u d = true then 1 else 0) + countCombs k ps us ds
  | _, _, _ => 0

/-- The sum of `f` over the numbers below `n`. -/
def sumBelow (n : Nat) (f : Nat → Nat) : Nat := ((List.range n).map f).sum

/-- The repeat measure of a field against the field of the same parity two before it (R66). -/
def repeatMeasure (h noise : Nat) (i : Image) (r : FieldRecord) (i2 : Image) (r2 : FieldRecord) : Nat :=
  min 65535 (sumBelow h (fun k =>
    match usableLine i r k, usableLine i2 r2 k with
    | some a, some b => countDiffs noise a b
    | _, _ => 0))

/-- The lines of the field above and below line `k` of its predecessor (R67). -/
def tripleLines (p : Parity) (k : Nat) : Nat × Nat :=
  match p with
  | .top    => (k, k + 1)
  | .bottom => (k - 1, k)

/-- Whether line `k` of the predecessor forms a triple (R67). -/
def isTriple (p : Parity) (h k : Nat) : Bool :=
  match p with
  | .top    => decide (k + 1 < h)
  | .bottom => decide (1 ≤ k) && decide (k < h)

/-- The comb measure of a field of parity `p` against its predecessor (R67). -/
def combMeasure (h comb : Nat) (p : Parity) (i : Image) (r : FieldRecord) (i1 : Image) (r1 : FieldRecord) : Nat :=
  min 65535 (sumBelow h (fun k =>
    if isTriple p h k then
      match usableLine i1 r1 k, usableLine i r (tripleLines p k).1, usableLine i r (tripleLines p k).2 with
      | some a, some u, some d => countCombs comb a u d
      | _, _, _ => 0
    else 0))

/-- The repeat measure of record `r`, absent when `n - 2` is missing or of the other parity (R65, R66). -/
def repeatOf (h noise : Nat) (images : List Image) (r : FieldRecord) (r2 : Option FieldRecord) : Option Nat :=
  match r2 with
  | none => none
  | some r2 =>
    match imageOf images r.num, imageOf images r2.num with
    | some i, some i2 => if r2.parity = r.parity then some (repeatMeasure h noise i r i2 r2) else none
    | _, _ => none

/-- The comb measure of record `r`, absent when `n - 1` is missing or of the same parity (R65, R67). -/
def combOf (h comb : Nat) (images : List Image) (r : FieldRecord) (r1 : Option FieldRecord) : Option Nat :=
  match r1, r.parity with
  | some r1, some p =>
    match imageOf images r.num, imageOf images r1.num with
    | some i, some i1 => if r1.parity = some (opposite p) then some (combMeasure h comb p i r i1 r1) else none
    | _, _ => none
  | _, _ => none

/-! ### Symbols and the history (R68, R69) -/

/-- Whether a measure is present and at or below its limit (R68). -/
def within (m : Option Nat) (limit : Nat) : Bool :=
  match m with
  | some x => decide (x ≤ limit)
  | none   => false

/-- The symbol of a field (R68). -/
def formSymbol (damaged : Bool) (c r : Option Nat) (pairLimit repeatLimit : Nat) : Symbol :=
  if damaged || (c.isNone && r.isNone) then .unknown
  else match within c pairLimit, within r repeatLimit with
    | false, false => .neither
    | true,  false => .p
    | false, true  => .r
    | true,  true  => .pr

/-- The symbol joins the head of the history, which keeps at most 10 (R69). -/
def pushSymbol (x : Symbol) (history : List Symbol) : List Symbol := (x :: history).take 10

/-! ### Patterns and matching (R70 to R72) -/

/-- Whether a symbol has the letter P; UNKNOWN is judged apart (R72). -/
def hasP : Symbol → Bool
  | .p       => true
  | .pr      => true
  | .neither => false
  | .r       => false
  | .unknown => false

/-- Whether a symbol has the letter R; UNKNOWN is judged apart (R72). -/
def hasR : Symbol → Bool
  | .r       => true
  | .pr      => true
  | .neither => false
  | .p       => false
  | .unknown => false

/-- Whether an expectation code is satisfied by having or lacking its letter: 1 NO, 2 YES, 3 ANY (R72, R143). -/
def expects (code : Nat) (has : Bool) : Bool :=
  match code with
  | 1 => !has
  | 2 => has
  | 3 => true
  | _ => false

/-- A symbol satisfies a phase when it satisfies both its expectations; UNKNOWN satisfies every phase (R72). -/
def satisfies (image : List Byte) (ph : Nat) (x : Symbol) : Bool :=
  decide (x = .unknown) || (expects (pairCode image ph) (hasP x) && expects (repeatCode image ph) (hasR x))

/-- Pattern image at phase `ph` matches the history (R71). -/
def patternMatches (image : List Byte) (ph : Nat) (history : List Symbol) : Bool :=
  let n := patternLength image
  decide (n ≠ 0) && decide (ph < n) && decide (n ≤ history.length) &&
  (List.range n).all (fun j => satisfies image ((ph + n - j) % n) (history.getD j .unknown))

/-- The entry's image of the active bank. -/
def patternImage (t : Tables) (i : Fin 8) : List Byte := t.patterns[i.val]

/-- The pattern entries in ascending order. -/
def allPatterns : List (Fin 8) := [0, 1, 2, 3, 4, 5, 6, 7]

/-- The scan: entries in ascending order, within each its phases in ascending order; the first match (R74). -/
def scanPatterns (t : Tables) (history : List Symbol) : Option (Fin 8 × Nat) :=
  allPatterns.findSome? (fun i =>
    ((List.range (patternLength (patternImage t i))).find?
      (fun ph => patternMatches (patternImage t i) ph history)).map (fun ph => (i, ph)))

/-! ### The tracking states (R73 to R77) -/

/-- The phase after `ph`, mod the length of the pattern's active entry (R73). -/
def advancePhase (t : Tables) (pat : Fin 8) (ph : Nat) : Nat := (ph + 1) % patternLength (patternImage t pat)

/-- The pattern matches the history at a phase. -/
def matchesAt (t : Tables) (pat : Fin 8) (ph : Nat) (history : List Symbol) : Bool :=
  patternMatches (patternImage t pat) ph history

/-- The FILM decision with the partner of a phase (R75 to R77). -/
def filmAt (t : Tables) (pat : Fin 8) (ph : Nat) : Decision := .film (phasePartner (patternImage t pat) ph)

/-- A scan in SEARCH: its first match is the candidate with run count 1, or there is none (R74). -/
def scanCandidate (t : Tables) (history : List Symbol) : Option Candidate :=
  (scanPatterns t history).map (fun x => ⟨x.1, x.2, 1⟩)

/-- The candidate after the field end's update (R74). -/
def nextCandidate (t : Tables) (history : List Symbol) (cand : Option Candidate) : Option Candidate :=
  match cand with
  | some x =>
    if matchesAt t x.pat (advancePhase t x.pat x.phase) history = true then
      some ⟨x.pat, advancePhase t x.pat x.phase, min 15 (x.run + 1)⟩
    else scanCandidate t history
  | none => scanCandidate t history

/-- One field end of the state machine: the new state, the decision for the field, and the event it raises
(R74 to R77, R79). -/
def trackStep (t : Tables) (p : FieldParams) (history : List Symbol) (k : Track) :
    Track × Decision × Option EventKind :=
  match k with
  | .search cand =>
    match nextCandidate t history cand with
    | some x =>
      if p.confirm ≤ x.run then (.locked x.pat x.phase, filmAt t x.pat x.phase, some .cadenceLocked)
      else (.search (some x), .video, none)
    | none => (.search none, .video, none)
  | .locked pat ph =>
    if matchesAt t pat (advancePhase t pat ph) history = true then
      (.locked pat (advancePhase t pat ph), filmAt t pat (advancePhase t pat ph), none)
    else (.hold pat (advancePhase t pat ph) 0, .video, none)
  | .hold pat ph count =>
    if matchesAt t pat (advancePhase t pat ph) history = true then
      (.locked pat (advancePhase t pat ph), filmAt t pat (advancePhase t pat ph), none)
    else if p.hold < count + 1 then (.search none, .video, some .cadenceLost)
    else (.hold pat (advancePhase t pat ph) (count + 1), .video, none)

/-- The decision written under the cadence policy (R78). -/
def policyDecision (p : Policy) (d : Decision) : Decision :=
  match p with
  | .filmAllowed => d
  | .videoOnly   => .video

/-- The counter of a tracker event (R79). -/
def countTrackEvent (e : Option EventKind) (x : Stats) : Stats :=
  match e with
  | some .cadenceLocked => { x with cadenceLocks := satAdd x.cadenceLocks 1 }
  | some .cadenceLost   => { x with cadenceLosses := satAdd x.cadenceLosses 1 }
  | _ => x

/-- The event of a field end, raised with the field's number (R79). -/
def raiseTrackEvent (c : Chan) (e : Option EventKind) (num : Nat) (s : State) : State :=
  match e with
  | some k => raise c k num s
  | none   => s

/-- What one field end leaves in the tracker and the record (R64 steps 1 to 6): the channel and the event. -/
def trackFieldEnd (t : Tables) (r : FieldRecord) (r1 r2 : Option FieldRecord) (ch : Channel) :
    Channel × Option EventKind :=
  let p := match imageOf ch.cad.images r.num with
    | some i => i.params
    | none   => ch.ctl.field
  let h := activeLines ch.ctl.format.standard
  let rm := repeatOf h p.noise ch.cad.images r r2
  let cm := combOf h p.comb ch.cad.images r r1
  let sym := formSymbol r.damaged cm rm p.pairLimit p.repeatLimit
  let history := pushSymbol sym ch.cad.history
  let res := trackStep t p history ch.cad.track
  ({ ch with
      ring := modRecord r.num (fun x => { x with
        repeatM := rm, combM := cm, symbol := some sym
        decision := some (policyDecision p.policy res.2.1) }) ch.ring
      cad := { ch.cad with track := res.1, history := history, lastDecided := some r.num }
      stats := countTrackEvent res.2.2 ch.stats },
   res.2.2)

/-- The field end of the newest record of a channel's ring, taken by its tracker (R36 step 3, R64). -/
def cadenceFieldEnd (c : Chan) (s : State) : State :=
  match (s.ch c).ring.reverse with
  | [] => s
  | r :: older =>
    let res := trackFieldEnd s.tables r older[0]? older[1]? (s.ch c)
    raiseTrackEvent c res.2 r.num (s.setCh c res.1)

/-! ### Effects from other blocks (R80 to R82) -/

/-- A fallback excess moves a LOCKED tracker to HOLD with hold count 0 (R80). -/
def fallbackExcess (k : Track) : Track :=
  match k with
  | .locked pat ph => .hold pat ph 0
  | .search x      => .search x
  | .hold pat ph n => .hold pat ph n

/-- A pattern swap of entry `i`: the tracker after it, and whether a lock was given up (R81). -/
def patternSwapped (i : Fin 8) (k : Track) : Track × Bool :=
  match k with
  | .locked pat ph => if pat = i then (.search none, true) else (.locked pat ph, false)
  | .hold pat ph n => if pat = i then (.search none, true) else (.hold pat ph n, false)
  | .search (some x) => if x.pat = i then (.search none, false) else (.search (some x), false)
  | .search none => (.search none, false)

/-- A pattern swap reaches channel `c`'s tracker; a lock given up counts and raises CADENCE_LOST with the
last decided field (R79, R81). -/
def swapTracker (i : Fin 8) (c : Chan) (s : State) : State :=
  let ch := s.ch c
  let res := patternSwapped i ch.cad.track
  let s1 := s.setCh c { ch with cad := { ch.cad with track := res.1 } }
  if res.2 then
    raise c .cadenceLost (ch.cad.lastDecided.getD 0)
      (s1.modCh c (fun x => { x with stats := { x.stats with cadenceLosses := satAdd x.stats.cadenceLosses 1 } }))
  else s1

/-- The cadence context and the measurement store are cleared (R82). -/
def clearCadence (ch : Channel) : Channel := { ch with cad := Cadence.clear }

/-- An image is opened for a new record, with the parameters in force; with three held, the oldest goes (R61, R63). -/
def openImage (num : Nat) (ch : Channel) : Channel :=
  let kept := if 3 ≤ ch.cad.images.length then ch.cad.images.drop 1 else ch.cad.images
  { ch with cad := { ch.cad with images := kept ++ [⟨num, ch.ctl.field, []⟩] } }

end Sys2Proof.Machine
end

