-- ==== Sys2Proof/Machine/Ring.lean ====
section
/-! DEFINITION. Chapter 3: arrival and reclaim (R34, R35), pins and release (R39, R40), output uses (R41),
flushes (R43 to R45), and the abandoning of a frame whose sources leave the ring (R89, R99). -/

namespace Sys2Proof.Machine

open Sys2Proof

/-! ### The engine's frame when its sources go (R52, R89, R99) -/

/-- A read burst in flight for channel `c` belongs to a frame ended or abandoned: it offers nothing (R52, R88). -/
def orphanRead (c : Chan) (b : Option Burst) : Option Burst :=
  match b with
  | some (.read c' slot line role num live present) =>
    if c' = c then some (.read c' slot line role num false present) else some (.read c' slot line role num live present)
  | other => other

/-- The fallback count of a first reconstruction becomes `fallback_last_field` (R99). -/
def publishFallback (f : Frame) (x : Stats) : Stats :=
  if f.first then { x with fallbackLastField := f.fallback } else x

/-- The engine leaves its frame: the pending read is withdrawn, a read in flight is orphaned, the count of a
first reconstruction is published (R88, R89, R99). -/
def leaveFrame (c : Chan) (s : State) : State :=
  match (s.ch c).engine with
  | none => s
  | some f =>
    { s.modCh c (fun ch => { ch with engine := none, stats := publishFallback f ch.stats }) with
      arbiter := { s.arbiter with burst := orphanRead c s.arbiter.burst } }

/-- The Scaler's frame after its engine abandoned it: black inside the active window and fill outside for the rest
of the output frame (R89, R110, R113, R122), whichever line period it has reached (log entry 28). -/
def abandonScaler (x : ScalerFrame) : ScalerFrame := { x with abandoned := true }

/-- A frame in progress is abandoned at once when its sources leave the ring (R89). -/
def abandonFrame (c : Chan) (s : State) : State :=
  match (s.ch c).engine with
  | none => s
  | some _ =>
    (leaveFrame c s).modCh c (fun ch =>
      { ch with scaler := ch.scaler.map abandonScaler })

/-! ### Slots and arrival (R33 to R35) -/

/-- The slots in ascending order. -/
def allSlots : List (Fin 8) := [0, 1, 2, 3, 4, 5, 6, 7]

/-- The free slot with the lowest index (R33); slot 0 stands in when none is free, which a ring of fewer
than 8 records rules out. -/
def lowestFreeSlot (ring : List FieldRecord) : Fin 8 :=
  (allSlots.find? (fun i => !ring.any (fun r => r.slot == i))).getD 0

/-- The oldest unpinned record (R34). -/
def oldestUnpinned (ring : List FieldRecord) : Option FieldRecord := ring.find? (fun r => !r.pinned)

/-- Whether a record is still available for output (R35, R127). -/
def availableAfter (last : Option Nat) (num : Nat) : Bool :=
  match last with
  | none   => true
  | some x => newer num x

/-- A forced drop is counted and raises SLIP_DROP with the reclaimed record's number (R35, R169). -/
def forcedDrop (c : Chan) (num : Nat) (s : State) : State :=
  raise c .slipDrop num (s.modCh c (fun ch =>
    { ch with stats := { ch.stats with fieldsDropped := satAdd ch.stats.fieldsDropped 1 } }))

/-- Reclaim: with 8 records in the ring, the oldest unpinned one is removed (R34 step 1, R35). -/
def reclaim (c : Chan) (s : State) : State :=
  if 8 ≤ (s.ch c).ring.length then
    match oldestUnpinned (s.ch c).ring with
    | none => s
    | some r =>
      let s1 := removeFromRing c ((s.ch c).ring.erase r) s
      if availableAfter (s.ch c).ctl.lastOutput r.num then forcedDrop c r.num s1 else s1
  else s

/-- A record with the creation values of R30; `flywheel` is the parity of a declared start (R13). -/
def newRecord (num : Nat) (slot : Fin 8) (offset : Nat) (flywheel : Option Parity) : FieldRecord :=
  { num, slot, state := .filling, parity := flywheel, vote := flywheel.map (fun _ => VoteResult.flywheel),
    stored := 0, dropouts := [], damaged := false, offset, repeatM := none, combM := none, symbol := none,
    decision := none, pinned := false, uses := 0 }

/-- Append: the new record joins the end of the ring in the lowest free slot (R34 step 2). -/
def appendRecord (num offset : Nat) (flywheel : Option Parity) (ch : Channel) : Channel :=
  { ch with ring := ch.ring ++ [newRecord num (lowestFreeSlot ch.ring) offset flywheel] }

/-! ### Pins and release (R39 to R41) -/

/-- The place of record `n` in the ring. -/
def ringPlace (num : Nat) (ring : List FieldRecord) : Nat := ring.findIdx (fun r => r.num == num)

/-- Pins on the record at a place, its predecessor and its successor, and on no other (R40 steps 1 and 2). -/
def pinAround (place : Nat) (ring : List FieldRecord) : List FieldRecord :=
  ring.mapIdx (fun i r => { r with pinned := decide (i = place ∨ i + 1 = place ∨ i = place + 1) })

/-- Whether a record stands before the predecessor of the record at a place, COMPLETE and unpinned (R40 step 3). -/
def behindPredecessor (place : Nat) (x : FieldRecord × Nat) : Bool :=
  decide (x.2 + 1 < place) && decide (x.1.state = .complete) && !x.1.pinned

/-- The ring after release for the new centre `n` (R40). -/
def releasedRing (num : Nat) (ring : List FieldRecord) : List FieldRecord :=
  let place := ringPlace num ring
  ((pinAround place ring).zipIdx.filter (fun x => !behindPredecessor place x)).map Prod.fst

/-- Release runs on the ring for the new centre `n` (R40). -/
def release (c : Chan) (num : Nat) (s : State) : State :=
  removeFromRing c (releasedRing num (s.ch c).ring) s

/-- The output uses of a record advance by one (R41). -/
def advanceUses (num : Nat) (ch : Channel) : Channel :=
  { ch with ring := modRecord num (fun r => { r with uses := satAdd r.uses 1 }) ch.ring }

/-! ### Flushes (R43 to R46) -/

/-- Every record is removed (R44, R45, R46, R47). -/
def flushRing (c : Chan) (s : State) : State := removeFromRing c [] s

/-- The ring after input loss, by the channel's state (R43). -/
def ringAfterLoss (state : ChanState) (ring : List FieldRecord) : List FieldRecord :=
  match state with
  | .starting => ring.filter (fun r => r.pinned && decide (r.state = .complete))
  | .running  => ring.filter (fun r => r.pinned && decide (r.state = .complete))
  | .halting  => ring.filter (fun r => decide (r.state = .complete))
  | .stopped  => ring.filter (fun r => decide (r.state = .complete))
  | .lost     => ring.filter (fun r => decide (r.state = .complete))

end Sys2Proof.Machine
end

