-- ==== Sys2Proof/Machine/Receiver.lean ====
section
/-! DEFINITION. Chapter 2: what a timing word does to the Input Receiver, the field record and the channel
(R11 to R25, R27), and the declaration of input loss (R26, R43, R133). -/

namespace Sys2Proof.Machine

open Sys2Proof

/-! ### Lines (R11, R17, R18) -/

/-- The active words a line of `periods` sample periods brought, as a count (R11, R18): two to each period
of its last 720 nominal periods that came. -/
def activeWordCount (std : Standard) (periods : Nat) : Nat :=
  2 * (min periods (lineLength std) - (lineLength std - 720))

/-- Word `i` of a line's active part as it was sent; a period for which no word is listed brought black. -/
def activeWord (std : Standard) (line : LineIn) (i : Nat) : Nat :=
  match line.words[2 * (lineLength std - 720) + i]? with
  | some w => w.toNat
  | none   => blackWord i

/-- The 1440 words of the assembly line: clamped as they enter (R3), missing words black (R18). -/
def assembleLine (std : Standard) (line : LineIn) : List Nat :=
  (List.range 1440).map (fun i =>
    if i < activeWordCount std line.periods then legalWord i (activeWord std line i) else blackWord i)

/-- The words of a window line's active part that came, not clamped and not checked (R23). -/
def windowWords (std : Standard) (line : LineIn) : List LineWord :=
  (List.range (activeWordCount std line.periods)).map
    (fun i => (line.words[2 * (lineLength std - 720) + i]?).getD (BitVec.ofNat 10 (blackWord i)))

/-- A good line: its own timing word was valid and its length equals L (R18). -/
def goodLine (r : Receiver) (line : LineIn) : Bool :=
  r.lineValid && decide (line.periods = lineLength r.fieldStd)

/-- The number of the line in progress as an active line (R17). -/
def activeLineOf (std : Standard) (lineNo : Nat) : Option Nat :=
  if firstActive std ≤ lineNo ∧ lineNo < firstActive std + activeLines std then some (lineNo - firstActive std)
  else none

/-- Whether a line lies in the control window, V - 4 to V - 1 (R1, R17). -/
def inControlWindow (std : Standard) (lineNo : Nat) : Bool :=
  decide (firstActive std - 4 ≤ lineNo) && decide (lineNo < firstActive std)

/-! ### Dropouts (R18 to R20) -/

/-- `dropout_lines` is counted once for each active line found to be a dropout (R18). -/
def countDropout (ch : Channel) : Channel :=
  { ch with stats := { ch.stats with dropoutLines := satAdd ch.stats.dropoutLines 1 } }

/-- A dropout of the field in progress is offered to its record (R19, R20). -/
def receiverDropout (line : Nat) (cause : Cause) (ch : Channel) : Channel :=
  match fillingRecord ch.ring with
  | some r => offerToRing r.num line cause ch
  | none   => ch

/-! ### The line buffer (R21) -/

/-- A complete line offers itself to the line buffer: with 2 waiting it is discarded as LOST (R21, R19). -/
def offerLine (l : BufLine) (ch : Channel) : Channel :=
  if ch.recv.buffer.length < 2 then { ch with recv := { ch.recv with buffer := ch.recv.buffer ++ [l] } }
  else if l.timing then receiverDropout l.line .lost ch
  else receiverDropout l.line .lost (countDropout ch)

/-- An active line is received into the assembly line (R18). -/
def receiveLine (line : LineIn) (ch : Channel) : Channel :=
  { ch with recv := { ch.recv with assembly := assembleLine ch.recv.fieldStd line } }

/-- The assembly line is empty for the next active line. -/
def emptyAssembly (ch : Channel) : Channel := { ch with recv := { ch.recv with assembly := [] } }

/-- The active line in the assembly line is judged at its end and offered to the buffer (R18, R21). -/
def judgeLine (k : Nat) (line : LineIn) (ch : Channel) : Channel :=
  if goodLine ch.recv line then offerLine ⟨k, ch.recv.assembly, false⟩ ch
  else offerLine ⟨k, ch.recv.assembly, true⟩ (receiverDropout k .timing (countDropout ch))

/-- A window line that carries a packet is handed to the Packet Unit (R23). -/
def handOn (line : LineIn) (ch : Channel) : Channel :=
  match windowWords ch.recv.fieldStd line with
  | [] => ch
  | w :: ws =>
    if w = marker1 then { ch with pku := { ch.pku with handed := ch.pku.handed ++ [w :: ws] } } else ch

/-- The line in progress ends (R14 step 1, R17, R18, R23). An active line of a field that is not accepted is received
and discarded (R17). -/
def endLine (line : LineIn) (ch : Channel) : Channel :=
  if inControlWindow ch.recv.fieldStd ch.recv.lineNo then handOn line ch
  else match activeLineOf ch.recv.fieldStd ch.recv.lineNo with
    | some k =>
      emptyAssembly (if ch.recv.accepted then judgeLine k line (receiveLine line ch) else receiveLine line ch)
    | none => ch

/-! ### The parity vote (R16) -/

/-- The parity and the vote of the indications collected (R16). -/
def decideParity (vote : List Parity) (prev : Option Parity) : Parity × VoteResult :=
  match vote with
  | [a, b, c] =>
    if a = b ∧ b = c then (a, .threeOfThree)
    else if a = b ∨ a = c then (a, .twoOfThree)
    else (b, .twoOfThree)
  | [a, b] => if a = b then (a, .twoOfThree) else (prev.elim .top opposite, .twoOfThree)
  | _ => (prev.elim .top opposite, .twoOfThree)

/-- The vote closes: the parity becomes the previous parity; in an accepted field it is entered in the
record, and a vote of 2 of 3 counts in `parity_disputes` (R16). -/
def closeVote (ch : Channel) : Channel :=
  let res := decideParity ch.recv.vote ch.recv.prevParity
  let recv := { ch.recv with voteClosed := true, prevParity := some res.1 }
  if ch.recv.accepted then
    { ch with
      recv := recv
      ring := modFilling (fun r => { r with parity := some res.1, vote := some res.2 }) ch.ring
      stats := if res.2 = .twoOfThree then
          { ch.stats with parityDisputes := satAdd ch.stats.parityDisputes 1 } else ch.stats }
  else { ch with recv := recv }

/-- A vote still open is closed (R36 step 1). -/
def closeOpenVote (ch : Channel) : Channel := if ch.recv.voteClosed then ch else closeVote ch

/-- A valid word's indication joins the vote. -/
def joinVote (p : Parity) (ch : Channel) : Channel := { ch with recv := { ch.recv with vote := ch.recv.vote ++ [p] } }

/-- An open vote at a line start (R16). At the line start of line V it closes: that line's own word has not been
checked when its marker makes the line start (R11), and does not vote (log entry 16). Before it a valid word's
indication joins the vote, which closes at the third. -/
def voteAtLine (w : TimingWord) (lineNo : Nat) (ch : Channel) : Channel :=
  if ch.recv.voteClosed then ch
  else if lineNo = firstActive ch.recv.fieldStd then closeVote ch
  else if w.valid then
    if (joinVote w.parity ch).recv.vote.length = 3 then closeVote (joinVote w.parity ch) else joinVote w.parity ch
  else ch

/-! ### Closing a field (R14, R36) -/

/-- A waiting line of the closing field is discarded and entered as LOST; a TIMING line is not counted
again (R14 step 2, R18, R19). -/
def discardWaiting (ch : Channel) (l : BufLine) : Channel :=
  if l.timing then receiverDropout l.line .lost ch else receiverDropout l.line .lost (countDropout ch)

/-- Every waiting line is discarded, oldest first (R14 step 2). -/
def discardBuffer (ch : Channel) : Channel :=
  ch.recv.buffer.foldl discardWaiting { ch with recv := { ch.recv with buffer := [] } }

/-- An active line that was not received is entered as SHORT (R14 step 3). -/
def shortLine (ch : Channel) (k : Nat) : Channel := receiverDropout k .short (countDropout ch)

/-- The active lines not received: those above the line in progress (R14 step 3). -/
def missingLines (r : Receiver) : List Nat :=
  (List.range (activeLines r.fieldStd)).filter (fun k => decide (r.lineNo < firstActive r.fieldStd + k))

/-- The record in progress becomes COMPLETE (R36 step 2). -/
def completeRecord (ch : Channel) : Channel :=
  { ch with ring := modFilling (fun r => { r with state := .complete }) ch.ring }

/-- The field end of an accepted field (R36): any open vote is closed, the record becomes COMPLETE and is
handed to the tracker. -/
def fieldEnd (c : Chan) (s : State) : State :=
  cadenceFieldEnd c (s.modCh c (fun ch => completeRecord (closeOpenVote ch)))

/-- The field in progress is closed (R14). The open line may be granted its burst at once by an idle arbiter
(R51) before the waiting lines are discarded. -/
def closeField (c : Chan) (line : LineIn) (s : State) : State :=
  let s1 := arbitrate (s.modCh c (endLine line))
  if (s1.ch c).recv.accepted then
    fieldEnd c (s1.modCh c (fun ch => (missingLines ch.recv).foldl shortLine (discardBuffer ch)))
  else s1

/-! ### Arrival offset and drift (R24, R25) -/

/-- The arrival offset of a field start at the present time (R24). `startSeen` says whether an output frame start has come
since the latest device reset; for a device restart's own start see log entry 31. -/
def arrivalOffset (s : State) : Nat :=
  match s.startSeen, s.rtu.latestStart with
  | true, some t => min 65535 ((s.now - t) / offsetUnit s.rtu.family)
  | _, _ => 0

/-- The difference of two offsets taken mod 65536 and mapped into -32768 to 32767 (R25). -/
def wrapDrift (x : Int) : Int :=
  let m := x % 65536
  if m < 32768 then m else m - 65536

/-- The drift at a capture (R25). -/
def driftFrom (latest : Option Nat) (offset : Nat) : Int :=
  match latest with
  | some p => wrapDrift ((offset : Int) - (p : Int))
  | none   => 0

/-! ### Beginning a field (R12, R13, R15) -/

/-- The parity of a declared field start: opposite to the previous parity (R13). -/
def flywheelParity (r : Receiver) : Parity := r.prevParity.elim .top opposite

/-- The receiver begins a field at a valid field-start word (R12) or at a declared one (R13). -/
def beginField (w : TimingWord) (flywheel : Bool) (offset : Nat) (ch : Channel) : Channel :=
  { ch with recv := { ch.recv with
      state := .inField
      lineNo := 0
      fieldStd := ch.ctl.format.standard
      accepted := false
      vote := if flywheel then [] else [w.parity]
      voteClosed := flywheel
      prevParity := if flywheel then some (flywheelParity ch.recv) else ch.recv.prevParity
      lineValid := w.valid
      drift := driftFrom ch.recv.latestOffset offset
      latestOffset := some offset } }

/-- The states in which a field start is accepted (R4, R15). -/
def writingState : ChanState → Bool
  | .stopped  => false
  | .starting => true
  | .running  => true
  | .halting  => true
  | .lost     => true

/-- Pending field values come into force (R138). -/
def fieldValuesInForce (ch : Channel) : Channel :=
  { ch with ctl := { ch.ctl with field := ch.ctl.pendingField.getD ch.ctl.field, pendingField := none } }

/-- The accepted field start's counts and number (R4, R13, R15). -/
def countAccepted (flywheel : Bool) (ch : Channel) : Channel :=
  { ch with
    recv := { ch.recv with accepted := true }
    fieldCount := nextField ch.fieldCount
    stats := { ch.stats with
      fieldsReceived := satAdd ch.stats.fieldsReceived 1
      flywheelStarts := if flywheel then satAdd ch.stats.flywheelStarts 1 else ch.stats.flywheelStarts } }

/-- A LOST channel at the field start that ends its loss: the ring is flushed, a HOLD frame abandoned, the
last output field cleared, and the channel enters STARTING (R45, R89, R135). -/
def lostToStarting (c : Chan) (s : State) : State :=
  (flushRing c (abandonFrame c s)).modCh c (fun ch =>
    { ch with ctl := { ch.ctl with state := .starting, lastOutput := none } })

/-- A field start is offered for acceptance; `flywheel` is the parity of a declared start (R15, R34, R61, R135). -/
def acceptField (c : Chan) (flywheel : Option Parity) (s : State) : State :=
  if writingState (s.ch c).ctl.state then
    let num := (s.ch c).fieldCount
    let offset := (s.ch c).recv.latestOffset.getD 0
    let s1 := s.modCh c (fun ch => fieldValuesInForce (countAccepted flywheel.isSome ch))
    let s2 := if (s.ch c).ctl.state = .lost then lostToStarting c s1 else s1
    (reclaim c s2).modCh c (fun ch => openImage num (appendRecord num offset flywheel ch))
  else s

/-- A valid field-start word begins a field and offers it (R12, R15). -/
def startField (c : Chan) (w : TimingWord) (s : State) : State :=
  acceptField c none (s.modCh c (beginField w false (arrivalOffset s)))

/-- A flywheel start begins a field with the opposite parity and offers it (R13, R15). -/
def startFlywheel (c : Chan) (w : TimingWord) (s : State) : State :=
  acceptField c (some (flywheelParity (s.ch c).recv)) (s.modCh c (beginField w true (arrivalOffset s)))

/-- The first valid field-start word taken in LOSS ends the loss (R27). -/
def endLoss (c : Chan) (w : TimingWord) (s : State) : State :=
  acceptField c none
    (raise c .inputRestored (s.ch c).fieldCount (s.modCh c (beginField w false (arrivalOffset s))))

/-! ### A line start (R11, R13) -/

/-- An ordinary line start of a field in progress: the line number advances and the vote may close (R11, R16). -/
def nextLine (w : TimingWord) (ch : Channel) : Channel :=
  voteAtLine w (ch.recv.lineNo + 1)
    { ch with recv := { ch.recv with lineNo := ch.recv.lineNo + 1, lineValid := w.valid } }

/-- Every valid timing word sets the loss count to 0 (R11, R26). -/
def clearLossCount (w : TimingWord) (ch : Channel) : Channel :=
  if w.valid then { ch with recv := { ch.recv with lossCount := 0 } } else ch

/-- What a timing word does, by the receiver state (R11 to R15, R27). -/
def lineStart (c : Chan) (w : TimingWord) (line : LineIn) (s : State) : State :=
  match (s.ch c).recv.state with
  | .seeking => if w.valid && w.fieldStart then startField c w s else s
  | .loss    => if w.valid && w.fieldStart then endLoss c w s else s
  | .inField =>
    if w.valid && w.fieldStart then startField c w (closeField c line s)
    else if (s.ch c).recv.lineNo + 1 = flywheelLine (s.ch c).recv.fieldStd then
      startFlywheel c w (closeField c line s)
    else (arbitrate (s.modCh c (endLine line))).modCh c (nextLine w)

/-- TIMING_WORD (R11): a recognised timing word marks a line start on channel `c`, `dt` after the previous
timed event, and ends the line `line`. -/
def execTimingWord (c : Chan) (dt : Nat) (w : TimingWord) (line : LineIn) (s : State) :
    Host.Outcome State Fault Refusal :=
  .next (lineStart c w line (({ s with now := s.now + dt }).modCh c (clearLossCount w)))

/-! ### Input loss (R26, R43, R82, R133) -/

/-- The receiver in LOSS, with no field in progress (R26). R26 names no effect on the vote, the line number and the
field standard: the model empties and closes the vote and keeps the other two (DESIGN CHOICE, log entry 25). -/
def receiverLoss (r : Receiver) : Receiver :=
  { r with state := .loss, accepted := false, vote := [], voteClosed := true, assembly := [], buffer := [],
           lossCount := 2, latestOffset := none }

/-- The channel state after input loss (R133). -/
def stateAfterLoss : ChanState → ChanState
  | .starting => .lost
  | .running  => .lost
  | .halting  => .halting
  | .stopped  => .stopped
  | .lost     => .lost

/-- Input loss is declared: the receiver enters LOSS, the FILLING record and, on entry to LOST, the unpinned
ones are removed, the tracker is cleared, and INPUT_LOST is raised (R26, R43, R82, R133). -/
def declareLoss (c : Chan) (s : State) : State :=
  let ch := s.ch c
  raise c .inputLost ch.fieldCount
    ((removeFromRing c (ringAfterLoss ch.ctl.state ch.ring) s).modCh c (fun x =>
      clearCadence { x with
        recv := receiverLoss x.recv
        ctl := { x.ctl with state := stateAfterLoss x.ctl.state } }))

/-- The loss count advances at an output frame start in SEEKING and IN_FIELD; at 2 the loss is declared (R26). -/
def lossAdvance (c : Chan) (s : State) : State :=
  let r := (s.ch c).recv
  if r.state = .loss then s
  else if 2 ≤ r.lossCount + 1 then declareLoss c s
  else s.modCh c (fun ch => { ch with recv := { ch.recv with lossCount := ch.recv.lossCount + 1 } })

/-- The receiver's work of an output frame start, once per start (R26, R120). -/
def lossWork (c : Chan) (s : State) : State :=
  if (s.ch c).lossDone then s else (lossAdvance c s).modCh c (fun ch => { ch with lossDone := true })

/-- INPUT_LOSS (R26): the loss count's advance at the output frame start now arriving, when it brings the
count to 2. When it does not, no loss is declared. -/
def execInputLoss (c : Chan) (s : State) : Host.Outcome State Fault Refusal :=
  if (s.ch c).lossDone = false ∧ (s.ch c).recv.state ≠ .loss ∧ (s.ch c).recv.lossCount = 1 then
    .next (lossWork c s)
  else .next s

end Sys2Proof.Machine
end

