-- ==== Sys2Proof/Machine/Scaler.lean ====
section
/-! DEFINITION. Chapter 7, the arithmetic: positions and phases (R106, R107), taps (R108), the filter (R109),
the vertical and horizontal passes (R110, R112), the active line (R113), and the rows still needed (R111). -/

namespace Sys2Proof.Machine

open Sys2Proof

/-! ### Positions (R106, R107) -/

/-- The step of a pass, in 1/65536 of a source sample (R106). -/
def passStep (src dst : Nat) : Nat := 65536 * src / dst

/-- The offset of a pass: half of step less 65536, rounded down (R106). -/
def passOffset (src dst : Nat) : Int := ((passStep src dst : Int) - 65536) / 2

/-- The source position P of destination position `k` (R107). -/
def sourcePosition (src dst k : Nat) : Int := (k : Int) * (passStep src dst : Int) + passOffset src dst

/-- The integer part i of a position, rounded down (R107). -/
def positionInt (p : Int) : Int := p / 65536

/-- The phase of a position, 0 to 63 (R107). -/
def positionPhase (p : Int) : Nat := ((p - 65536 * positionInt p) / 1024).toNat

/-! ### Taps and filter (R108, R109) -/

/-- A tap clamped to 0 to src - 1 (R108). -/
def clampTap (src : Nat) (t : Int) : Nat := if t < 0 then 0 else min (src - 1) t.toNat

/-- The four taps of destination position `k` (R108). -/
def passTaps (src dst k : Nat) : Nat × Nat × Nat × Nat :=
  let i := positionInt (sourcePosition src dst k)
  (clampTap src (i - 1), clampTap src i, clampTap src (i + 1), clampTap src (i + 2))

/-- The filter result before its clamp: the sum plus 256, divided by 512 and rounded down (R109). -/
def filterValue (c0 c1 c2 c3 : Int) (s0 s1 s2 s3 : Nat) : Int :=
  (c0 * s0 + c1 * s1 + c2 * s2 + c3 * s3 + 256) / 512

/-- A signed result clamped to a legal range with the given upper end (R109 step 3). -/
def clampSigned (hi : Nat) (v : Int) : Nat := clampNat 64 hi v.toNat

/-- The filter result of a luma position (R109). -/
def filterLuma (c0 c1 c2 c3 : Int) (s0 s1 s2 s3 : Nat) : Nat :=
  clampSigned 940 (filterValue c0 c1 c2 c3 s0 s1 s2 s3)

/-- The filter result of a chroma position (R109). -/
def filterChroma (c0 c1 c2 c3 : Int) (s0 s1 s2 s3 : Nat) : Nat :=
  clampSigned 960 (filterValue c0 c1 c2 c3 s0 s1 s2 s3)

/-! ### Rows of samples -/

/-- Sample `i` of a component. -/
def sampleAt (a : Array Nat) (i : Nat) : Nat := a.getD i 0

/-- A component of `n` samples given by position. -/
def tabulate (n : Nat) (f : Nat → Nat) : Array Nat := ((List.range n).map f).toArray

/-- A row of one colour: `n` luma and `n / 2` Cb and Cr samples. -/
def colourRow (n : Nat) (x : Colour) : Row :=
  ⟨tabulate n (fun _ => x.y), tabulate (n / 2) (fun _ => x.cb), tabulate (n / 2) (fun _ => x.cr)⟩

/-! ### The vertical pass (R108, R110) -/

/-- The four frame rows the taps of output line `y` read: clamped within the band first, then moved by the
band's first row (R108). -/
def verticalRows (f : ScalerFrame) (y : Nat) : Nat × Nat × Nat × Nat :=
  let t := passTaps f.bandCount (rasterHeight f.raster) y
  (f.bandFirst + t.1, f.bandFirst + t.2.1, f.bandFirst + t.2.2.1, f.bandFirst + t.2.2.2)

/-- The lowest row the rest of the frame can read (R111): past the last line, none of the band. -/
def lowestNeeded (f : ScalerFrame) : Nat :=
  if f.nextLine < rasterHeight f.raster then (verticalRows f f.nextLine).1 else f.bandFirst + f.bandCount

/-- Whether a built row awaits release: in the band and not below the lowest row still needed (R87, R111). -/
def rowAwaited (f : ScalerFrame) (r : Nat) : Bool :=
  decide (f.bandFirst ≤ r) && decide (r < f.bandFirst + f.bandCount) && decide (lowestNeeded f ≤ r)

/-- The intermediate row of output line `y` from its four tapped rows (R110). -/
def verticalPass (f : ScalerFrame) (y : Nat) (r0 r1 r2 r3 : Row) : Row :=
  let ph := positionPhase (sourcePosition f.bandCount (rasterHeight f.raster) y)
  let c0 := coefOf f.vcoefs ph 0
  let c1 := coefOf f.vcoefs ph 1
  let c2 := coefOf f.vcoefs ph 2
  let c3 := coefOf f.vcoefs ph 3
  { y := tabulate 720 (fun x =>
      filterLuma c0 c1 c2 c3 (sampleAt r0.y x) (sampleAt r1.y x) (sampleAt r2.y x) (sampleAt r3.y x))
    cb := tabulate 360 (fun x =>
      filterChroma c0 c1 c2 c3 (sampleAt r0.cb x) (sampleAt r1.cb x) (sampleAt r2.cb x) (sampleAt r3.cb x))
    cr := tabulate 360 (fun x =>
      filterChroma c0 c1 c2 c3 (sampleAt r0.cr x) (sampleAt r1.cr x) (sampleAt r2.cr x) (sampleAt r3.cr x)) }

/-! ### The horizontal pass and the active line (R112, R113) -/

/-- A component resampled from `src` to `dst` positions with a coefficient set and a filter (R112). -/
def horizontalComponent (image : List Byte) (src dst : Nat)
    (filter : Int → Int → Int → Int → Nat → Nat → Nat → Nat → Nat) (a : Array Nat) : Array Nat :=
  tabulate dst (fun k =>
    let ph := positionPhase (sourcePosition src dst k)
    let t := passTaps src dst k
    filter (coefOf image ph 0) (coefOf image ph 1) (coefOf image ph 2) (coefOf image ph 3)
      (sampleAt a t.1) (sampleAt a t.2.1) (sampleAt a t.2.2.1) (sampleAt a t.2.2.2))

/-- The active-window samples of a line from its intermediate row (R112). -/
def horizontalPass (f : ScalerFrame) (r : Row) : Row :=
  let width := (activeWindow f.aspect f.raster).2
  { y  := horizontalComponent f.hcoefs 720 width filterLuma r.y
    cb := horizontalComponent f.hcoefs 360 (width / 2) filterChroma r.cb
    cr := horizontalComponent f.hcoefs 360 (width / 2) filterChroma r.cr }

/-- A component of the output line: window samples inside the window, fill outside it (R8, R113). -/
def placeInWindow (total first width fill : Nat) (a : Array Nat) : Array Nat :=
  tabulate total (fun x => if first ≤ x ∧ x < first + width then sampleAt a (x - first) else fill)

/-- An output line of a raster and an aspect, with the given active-window samples and fill outside (R8, R113). -/
def windowLine (raster : Raster) (aspect : Aspect) (fill : Colour) (r : Row) : Row :=
  let first := (activeWindow aspect raster).1
  let width := (activeWindow aspect raster).2
  let total := rasterWidth raster
  { y  := placeInWindow total first width fill.y r.y
    cb := placeInWindow (total / 2) (first / 2) (width / 2) fill.cb r.cb
    cr := placeInWindow (total / 2) (first / 2) (width / 2) fill.cr r.cr }

/-- The output line of a frame with the given active-window samples (R8, R113). -/
def fillAround (f : ScalerFrame) (r : Row) : Row := windowLine f.raster f.aspect f.fill r

/-- Black active-window samples of a raster and an aspect (R53, R89). -/
def blackSamples (raster : Raster) (aspect : Aspect) : Row := colourRow (activeWindow aspect raster).2 blackColour

/-- Black active-window samples of a frame (R53, R89). -/
def blackWindow (f : ScalerFrame) : Row := blackSamples f.raster f.aspect

/-- A wholly black output line (R6, R8). -/
def blackLine (r : Raster) : Row := colourRow (rasterWidth r) blackColour

end Sys2Proof.Machine
end

