-- ==== Sys2Proof/Machine/Engine.lean ====
section
/-! DEFINITION. Chapter 6: the read plan (R85, R86), the build order (R87), repair (R91), the estimates and
the blend (R92 to R96), weaving and fallback (R97, R98), sample accounts and the Sample Probe (R102, R175);
and with them the completion of read bursts (R52) and the checks of R54 to R57. -/

namespace Sys2Proof.Machine

open Sys2Proof

/-! ### Estimates (R90, R92 to R96) -/

/-- The sum of two samples plus 1, divided by 2 and rounded down. -/
def average (a b : Nat) : Nat := (a + b + 1) / 2

/-- The position left of `x`; below 0 it is read as 0 (R92). -/
def leftOf (x : Nat) : Nat := x - 1

/-- The position right of `x`; above 719 it is read as 719 (R92). -/
def rightOf (x : Nat) : Nat := min 719 (x + 1)

/-- The spatial estimate of luma between rows `a` and `b`: the candidate with the smallest difference,
vertical before left diagonal before right diagonal (R92). -/
def spatialLuma (a b : Array Nat) (x : Nat) : Nat :=
  let v  := absDiff (sampleAt a x) (sampleAt b x)
  let ld := absDiff (sampleAt a (leftOf x)) (sampleAt b (rightOf x))
  let rd := absDiff (sampleAt a (rightOf x)) (sampleAt b (leftOf x))
  if v ≤ ld ∧ v ≤ rd then average (sampleAt a x) (sampleAt b x)
  else if ld ≤ rd then average (sampleAt a (leftOf x)) (sampleAt b (rightOf x))
  else average (sampleAt a (rightOf x)) (sampleAt b (leftOf x))

/-- The spatial estimate of chroma: the vertical candidate alone (R92). -/
def spatialChroma (a b : Array Nat) (j : Nat) : Nat := average (sampleAt a j) (sampleAt b j)

/-- The motion at luma position `x` of a row: the largest of three differences of the neighbours (R94). -/
def motionAt (p n : Array Nat) (x : Nat) : Nat :=
  max (absDiff (sampleAt p (leftOf x)) (sampleAt n (leftOf x)))
    (max (absDiff (sampleAt p x) (sampleAt n x)) (absDiff (sampleAt p (rightOf x)) (sampleAt n (rightOf x))))

/-- The weight of a motion under a curve (R94). -/
def motionWeight (curve : List Byte) (m : Nat) : Nat := curveWeight curve (m / 32)

/-- The blend of a spatial and a temporal estimate (R95). -/
def blend (w s t : Nat) : Nat := (w * s + (64 - w) * t + 32) / 64

/-- The values behind a sample: S, T when available, M, w and the result O (R102). -/
structure Estimate where
  s : Nat
  t : Option Nat
  m : Nat
  w : Nat
  o : Nat
  deriving DecidableEq, Repr, Inhabited

/-- The video value of luma position `x` of a missing row between rows `a` and `b` of the centre, with the
neighbours' rows when T is available (R92 to R95). -/
def videoLuma (curve : List Byte) (a b : Row) (temporal : Option (Row × Row)) (x : Nat) : Estimate :=
  let s := spatialLuma a.y b.y x
  match temporal with
  | some (p, n) =>
    let t := average (sampleAt p.y x) (sampleAt n.y x)
    let m := motionAt p.y n.y x
    let w := motionWeight curve m
    ⟨s, some t, m, w, blend w s t⟩
  | none => ⟨s, none, 0, 64, s⟩

/-- A chroma component's video value at sample `j`, with the weight of its co-sited luma sample (R96). -/
def videoChroma (w : Nat) (a b : Array Nat) (temporal : Option (Array Nat × Array Nat)) (j : Nat) : Nat :=
  match temporal with
  | some (p, n) => blend w (spatialChroma a b j) (average (sampleAt p j) (sampleAt n j))
  | none => spatialChroma a b j

/-- The weight of luma position `x` (R94): 64 where T is not available. -/
def weightAt (curve : List Byte) (temporal : Option (Row × Row)) (x : Nat) : Nat :=
  match temporal with
  | some (p, n) => motionWeight curve (motionAt p.y n.y x)
  | none => 64

/-- A missing row built by the video blend (R95, R96). -/
def videoRow (curve : List Byte) (a b : Row) (temporal : Option (Row × Row)) : Row :=
  { y  := tabulate 720 (fun x => (videoLuma curve a b temporal x).o)
    cb := tabulate 360 (fun j =>
      videoChroma (weightAt curve temporal (2 * j)) a.cb b.cb (temporal.map (fun t => (t.1.cb, t.2.cb))) j)
    cr := tabulate 360 (fun j =>
      videoChroma (weightAt curve temporal (2 * j)) a.cr b.cr (temporal.map (fun t => (t.1.cr, t.2.cr))) j) }

/-! ### Weaving (R97, R98) -/

/-- Whether the woven sample at `x` combs against the centre's rows beside it (R98). -/
def wovenCombs (k : Nat) (partner a b : Row) (x : Nat) : Bool :=
  combs k (sampleAt partner.y x) (sampleAt a.y x) (sampleAt b.y x)

/-- A woven row: the partner's samples, with the video value where luma combs and, at even positions, for
the co-sited chroma (R97, R98, R96). -/
def wovenRow (k : Nat) (curve : List Byte) (partner a b : Row) (temporal : Option (Row × Row)) : Row :=
  let video := videoRow curve a b temporal
  { y  := tabulate 720 (fun x =>
      if wovenCombs k partner a b x then sampleAt video.y x else sampleAt partner.y x)
    cb := tabulate 360 (fun j =>
      if wovenCombs k partner a b (2 * j) then sampleAt video.cb j else sampleAt partner.cb j)
    cr := tabulate 360 (fun j =>
      if wovenCombs k partner a b (2 * j) then sampleAt video.cr j else sampleAt partner.cr j) }

/-- Luma samples of a woven row that fall back (R98). -/
def combCount (k : Nat) (partner a b : Row) : Nat := (List.range 720).countP (wovenCombs k partner a b)

/-- The values behind a woven sample (R102). -/
def wovenLuma (k : Nat) (curve : List Byte) (partner a b : Row) (temporal : Option (Row × Row)) (x : Nat) :
    Estimate :=
  if wovenCombs k partner a b x then videoLuma curve a b temporal x
  else
    let e := videoLuma curve a b temporal x
    ⟨e.s, some (sampleAt partner.y x), e.m, 0, sampleAt partner.y x⟩

/-! ### Lines of a frame (R85, R86) -/

/-- A line of a source whose turn has come: `some none` when it is treated as listed (R86). -/
def fetchedLine (f : Frame) (role : Role) (k : Nat) : Option (Option Row) :=
  (f.lines.find? (fun x => decide (x.role = role) && x.line == k)).map Fetched.row

/-- The row of a line that is fetched and not treated as listed. -/
def usableRow (f : Frame) (role : Role) (k : Nat) : Option Row := (fetchedLine f role k).join

/-- Whether a neighbour is present and of the opposite parity to the centre (R5, R85). -/
def oppositeSource (f : Frame) (role : Role) : Bool :=
  match frameSource f role with
  | some r => decide (r.parity = opposite f.centre.parity)
  | none   => false

/-- Whether both neighbours are present and of the centre's parity (R85). -/
def bothSameParity (f : Frame) : Bool :=
  match f.pred, f.succ with
  | some p, some n => decide (p.parity = f.centre.parity) && decide (n.parity = f.centre.parity)
  | _, _ => false

/-- Whether a source's record lists a line at present. -/
def sourceLists (ring : List FieldRecord) (f : Frame) (role : Role) (k : Nat) : Bool :=
  match frameSource f role with
  | none   => true
  | some r =>
    match findRecord ring r.num with
    | some x => isListed x.dropouts k
    | none   => false

/-- Whether line `k` of the centre was skipped as listed or delivered as a dropout, and is not yet repaired (R85).
A line no longer held was used as delivered: a listed one waits for the turns of both neighbours (R87). -/
def centreListed (f : Frame) (k : Nat) : Bool :=
  match fetchedLine f .centre k with
  | some none     => true
  | some (some _) => false
  | none          => false

/-- Whether the line of a turn is read: the tests of R85. A listed line is never read. -/
def lineNeeded (ring : List FieldRecord) (f : Frame) (role : Role) (k : Nat) : Bool :=
  !sourceLists ring f role k &&
  match role with
  | .centre => true
  | .pred   => oppositeSource f .pred || (bothSameParity f && centreListed f k)
  | .succ   => oppositeSource f .succ || (bothSameParity f && centreListed f k)

/-- The engine's work state (R83): whether every row of the frame has been built. -/
def frameFinished (f : Frame) : Bool := decide (2 * f.height ≤ f.rowsBuilt)

/-- Built rows that may await release at once (R87). -/
def cacheLimit : Nat := 12

/-- A line place's turn is skipped: the line is treated as listed (R86). -/
def skipTurn (f : Frame) : Frame :=
  { f with lines := f.lines ++ [⟨turnRole f.turn, turnLine f.turn, none⟩], turn := f.turn + 1 }

/-- Whether a read burst of channel `c` is in flight. -/
def readInFlight (c : Chan) (b : Option Burst) : Bool :=
  match b with
  | some (.read d _ _ _ _ _ _) => decide (d = c)
  | some (.write _ _ _ _)      => false
  | none                       => false

/-- The next turn of the read plan, when the engine may take one: a skip, or a read raised (R85, R87). While a read
of the channel is in flight (`busy`), also one of a frame that has ended, none is raised: the next comes at its
completion (R50; log entry 20). -/
def nextTurn (busy : Bool) (ring : List FieldRecord) (f : Frame) : Option Frame :=
  if f.read = .idle ∧ f.turn < 3 * f.height ∧ f.cache.length < cacheLimit then
    if lineNeeded ring f (turnRole f.turn) (turnLine f.turn) then
      if busy then none else some { f with read := .pending }
    else some (skipTurn f)
  else none

/-- A line is delivered: its samples, or, marked as a dropout, a line treated as listed (R52, R86). -/
def deliverLine (row : Option Row) (f : Frame) : Frame :=
  { f with lines := f.lines ++ [⟨turnRole f.turn, turnLine f.turn, row⟩], turn := f.turn + 1, read := .idle,
           delivered := true }

/-! ### The build order (R87) -/

/-- The frame row built at place `b` of the build order: each existing row in ascending order, and each
missing row as soon as the existing rows beside it have been built (R87). -/
def rowAt (p : Parity) (h b : Nat) : Nat :=
  match p with
  | .top =>
    if b = 0 ∨ b = 2 * h - 1 then b
    else if b % 2 = 1 then b + 1 else b - 1
  | .bottom => if b % 2 = 0 then b + 1 else b - 1

/-- The lowest frame row not yet built, the frame context's "next row" (R83). -/
def nextRow (f : Frame) : Nat :=
  let b := f.rowsBuilt
  match f.centre.parity with
  | .top    => if b = 0 ∨ 2 * f.height ≤ b ∨ b % 2 = 1 then b else b - 1
  | .bottom => if b % 2 = 0 then b else b - 1

/-- Whether the turn of line place `k` of a source is over. -/
def turnOver (f : Frame) (role : Role) (k : Nat) : Bool :=
  match role with
  | .centre => decide (3 * k < f.turn)
  | .pred   => decide (3 * k + 1 < f.turn)
  | .succ   => decide (3 * k + 2 < f.turn)

/-- Whether every line that row `r` may use has been delivered or skipped (R87). -/
def rowReady (f : Frame) (r : Nat) : Bool :=
  let k := linePlace r
  if supplies f.centre.parity r then
    turnOver f .centre k &&
    ((usableRow f .centre k).isSome ||
      ((decide (f.height ≤ k + 1) || turnOver f .centre (k + 1)) &&
       (!bothSameParity f || (turnOver f .pred k && turnOver f .succ k))))
  else
    (!oppositeSource f .pred || turnOver f .pred k) && (!oppositeSource f .succ || turnOver f .succ k)

/-! ### Building one row (R87, R91, R95, R97) -/

/-- The neighbours' rows at a line place when both are present, supply the row and are unlisted there (R90). -/
def temporalRows (f : Frame) (existing : Bool) (k : Nat) : Option (Row × Row) :=
  if (if existing then bothSameParity f else oppositeSource f .pred && oppositeSource f .succ) then
    match usableRow f .pred k, usableRow f .succ k with
    | some p, some n => some (p, n)
    | _, _ => none
  else none

/-- The averages of two rows, sample by sample (R90, R91). -/
def averageRows (a b : Row) : Row :=
  { y  := tabulate 720 (fun x => average (sampleAt a.y x) (sampleAt b.y x))
    cb := tabulate 360 (fun x => average (sampleAt a.cb x) (sampleAt b.cb x))
    cr := tabulate 360 (fun x => average (sampleAt a.cr x) (sampleAt b.cr x)) }

/-- A black source row (R3, R91). -/
def blackRow : Row := colourRow 720 blackColour

/-- The repair of listed line `k` of the centre (R91): both rows two away, one of them, the neighbours, black. -/
def repairedRow (f : Frame) (k : Nat) : Row :=
  let above := if k = 0 then none else usableRow f .centre (k - 1)
  let below := if f.height ≤ k + 1 then none else usableRow f .centre (k + 1)
  match above, below with
  | some a, some b => averageRows a b
  | some a, none   => a
  | none, some b   => b
  | none, none     =>
    match temporalRows f true k with
    | some (p, n) => averageRows p n
    | none        => blackRow

/-- The existing rows of the centre above and below missing row `r`; at the top and bottom edges the one
inside the frame is used as both (R92, R98). -/
def rowsBeside (f : Frame) (r : Nat) : Row × Row :=
  let above := if r = 0 then none else usableRow f .centre (linePlace (r - 1))
  let below := if 2 * f.height ≤ r + 1 then none else usableRow f .centre (linePlace (r + 1))
  match above, below with
  | some a, some b => (a, b)
  | some a, none   => (a, a)
  | none, some b   => (b, b)
  | none, none     => (blackRow, blackRow)

/-- The partner's row at a line place, when the partner is usable there (R97). -/
def partnerRow (f : Frame) (k : Nat) : Option Row :=
  match f.mode with
  | .video      => none
  | .film .prev => if oppositeSource f .pred then usableRow f .pred k else none
  | .film .next => if oppositeSource f .succ then usableRow f .succ k else none

/-- A built row: its samples, the woven luma samples that fell back, and the values behind one column (R102). -/
structure Built where
  row       : Row
  fallbacks : Nat
  est       : Estimate
  mode      : Decision
  fellBack  : Bool
  deriving DecidableEq, Repr, Inhabited

/-- An existing row: as delivered or repaired, and its account at a column (R91, R102). -/
def buildExisting (f : Frame) (k column : Nat) : Built :=
  let row := (usableRow f .centre k).getD (repairedRow f k)
  let v := sampleAt row.y column
  ⟨row, 0, ⟨v, none, 0, 64, v⟩, f.mode, false⟩

/-- A missing row: woven from the usable partner of a FILM mode, else built by the video blend (R95, R97). Its
accounts carry the frame's mode, also when a FILM row falls back whole (R102). -/
def buildMissing (f : Frame) (r column : Nat) : Built :=
  let k := linePlace r
  let ab := rowsBeside f r
  let temporal := temporalRows f false k
  match partnerRow f k with
  | some p =>
    ⟨wovenRow f.comb f.curve p ab.1 ab.2 temporal, combCount f.comb p ab.1 ab.2,
     wovenLuma f.comb f.curve p ab.1 ab.2 temporal column, f.mode, wovenCombs f.comb p ab.1 ab.2 column⟩
  | none =>
    ⟨videoRow f.curve ab.1 ab.2 temporal, 0, videoLuma f.curve ab.1 ab.2 temporal column, f.mode, false⟩

/-- Row `r` built, with the account of one column. -/
def buildRow (f : Frame) (r column : Nat) : Built :=
  if supplies f.centre.parity r then buildExisting f (linePlace r) column else buildMissing f r column

/-- The last place of the build order at which a fetched line can be used (R87). -/
def lastUse (f : Frame) (x : Fetched) : Nat :=
  let k := x.line
  min (2 * f.height - 1)
    (if x.role = .centre then (match f.centre.parity with | .top => 2 * k + 2 | .bottom => 2 * k + 3)
     else if oppositeSource f x.role then (match f.centre.parity with | .top => 2 * k + 2 | .bottom => 2 * k + 1)
     else (match f.centre.parity with | .top => 2 * k - 1 | .bottom => 2 * k))

/-- A repaired line of the centre is unlisted for every later use in the frame (R91). -/
def keepRepair (r : Nat) (row : Row) (f : Frame) (x : Fetched) : Fetched :=
  if supplies f.centre.parity r ∧ x.role = .centre ∧ x.line = linePlace r then { x with row := some row } else x

/-- The frame after row `r` was built: counted, kept while it awaits release, fallbacks counted in a first
reconstruction, and fetched lines that no later row can use dropped (R87, R98). -/
def afterBuild (sc : ScalerFrame) (r : Nat) (b : Built) (f : Frame) : Frame :=
  let f1 := { f with
    rowsBuilt := f.rowsBuilt + 1
    cache := if rowAwaited sc r then f.cache ++ [(r, b.row)] else f.cache
    fallback := if f.first then satAdd f.fallback b.fallbacks else f.fallback }
  { f1 with lines := (f.lines.map (keepRepair r b.row f)).filter (fun x => decide (f1.rowsBuilt ≤ lastUse f x)) }

/-! ### The Sample Probe (R102, R175) -/

/-- Whether the condition of an arm record holds for an account (R175). -/
def conditionHolds (arm : Arm) (x : Account) : Bool :=
  match arm.cond with
  | .any           => true
  | .film          => (match x.mode with | .film _ => true | .video => false)
  | .video         => (match x.mode with | .film _ => false | .video => true)
  | .fallback      => x.fallback
  | .motionAtLeast => decide (arm.m ≤ x.m)

/-- The account of the column a row was built with (R102). -/
def accountOf (ch : Channel) (f : Frame) (b : Built) : Account :=
  { field := f.centre.num, mode := b.mode, fallback := b.fellBack, s := b.est.s, t := b.est.t, m := b.est.m,
    w := b.est.w, o := b.est.o, track := trackName ch.cad.track }

/-- The column of an armed probe; 0 stands in when none is armed. -/
def probeColumn (p : Probe) : Nat :=
  match p with
  | .armed arm => arm.column
  | .idle => 0
  | .captured _ _ => 0

/-- The accounts of row `r` of a first reconstruction reach an ARMED probe (R175). -/
def probeRow (c : Chan) (f : Frame) (r : Nat) (b : Built) (s : State) : State :=
  match s.probe with
  | .armed arm =>
    let x := accountOf (s.ch c) f b
    if f.first = true ∧ arm.chan = c ∧ arm.row = r ∧ conditionHolds arm x = true then
      raise c .probeHit x.field { s with probe := .captured arm x }
    else s
  | .idle => s
  | .captured _ _ => s

/-! ### Running the engine (R85, R87) -/

/-- The next row is built when it is ready, fewer than 12 built rows await release, and a read of the frame has
completed (R87, R175). -/
def buildNext (c : Chan) (s : State) : Option State :=
  match (s.ch c).engine, (s.ch c).scaler with
  | some f, some sc =>
    let r := rowAt f.centre.parity f.height f.rowsBuilt
    if frameFinished f = false ∧ f.delivered = true ∧ f.cache.length < cacheLimit ∧ rowReady f r = true then
      let b := buildRow f r (probeColumn s.probe)
      some (probeRow c f r b (s.modCh c (fun ch => { ch with engine := some (afterBuild sc r b f) })))
    else none
  | _, _ => none

/-- The next turn of the read plan is taken, when the engine may take one (R85). -/
def turnNext (c : Chan) (s : State) : Option State :=
  match (s.ch c).engine with
  | some f =>
    (nextTurn (readInFlight c s.arbiter.burst) (s.ch c).ring f).map (fun f1 => s.modCh c (fun ch => { ch with engine := some f1 }))
  | none => none

/-- The engine builds every row it can and takes turns until it must wait (R87): rows before turns (log
entry 20). `fuel` bounds rows and turns together. -/
def runEngine (c : Chan) : Nat → State → State
  | 0, s => s
  | fuel + 1, s =>
    match buildNext c s with
    | some s1 => runEngine c fuel s1
    | none =>
      match turnNext c s with
      | some s1 => runEngine c fuel s1
      | none => s

/-- More than the rows and turns of the largest frame together: 576 and 864. -/
def engineFuel : Nat := 2000

/-- The engine runs until it must wait, and an idle arbiter grants the read it raised (R51, R85, R87). -/
def pumpEngine (c : Chan) (s : State) : State := arbitrate (runEngine c engineFuel s)

/-! ### Beginning a frame (R84) -/

/-- A record as a source of a frame. -/
def sourceOf (r : FieldRecord) : SourceRef := ⟨r.num, r.slot, r.parity.getD .top⟩

/-- The record before and the record after a place of the ring, where pinned (R39, R84). -/
def pinnedAt (ring : List FieldRecord) (place : Nat) : Option FieldRecord :=
  (ring[place]?).bind (fun r => if r.pinned then some r else none)

/-- The frame begun on centre `n` at output frame start `n0` (R84). -/
def newFrame (t : Tables) (n0 : Nat) (ch : Channel) (num : Nat) : Option Frame :=
  let place := ringPlace num ch.ring
  (pinnedAt ch.ring place).map (fun r =>
    { centre := sourceOf r
      pred := (if place = 0 then none else pinnedAt ch.ring (place - 1)).map sourceOf
      succ := (pinnedAt ch.ring (place + 1)).map sourceOf
      mode := r.decision.getD .video
      first := decide (r.uses = 1)
      curveNo := ch.ctl.frame.curve
      curve := tableImage t (.curve ch.ctl.frame.curve)
      comb := ch.ctl.field.comb
      fallbackLimit := ch.ctl.frame.fallbackLimit
      height := activeLines ch.ctl.format.standard
      begun := n0, turn := 0, read := .idle, delivered := false, rowsBuilt := 0, lines := [], cache := [], fallback := 0 })

/-! ### Reading (R52, R54 to R57) -/

/-- The data bit a correction inverts. -/
def fixMask (e : WordError) : BitVec 64 :=
  match e.cls, e.fix with
  | .single, some i => BitVec.ofNat 64 (2 ^ i.val)
  | _, _ => 0

/-- The data of a word as delivered: as read, with the bit a single error names inverted (R54). -/
def deliveredWord (v : Nat) (e : Option WordError) : Nat :=
  match e with
  | none   => v
  | some e => (BitVec.ofNat 64 v ^^^ e.flips ^^^ fixMask e).toNat

/-- The sample words of a line's bytes, from word `w` on, as delivered (R48, R54). -/
def lineSamples (err : Nat → Option WordError) : Nat → List Byte → List Nat
  | w, b0 :: b1 :: b2 :: b3 :: b4 :: b5 :: b6 :: b7 :: rest =>
    unpackSix (deliveredWord (bytesWord [b0, b1, b2, b3, b4, b5, b6, b7]) (err w)) ++ lineSamples err (w + 1) rest
  | _, _ => []

/-- The luma samples of a line of words (R2). -/
def lumaWords : List Nat → List Nat
  | _ :: y :: rest => y :: lumaWords rest
  | _ => []

/-- The Cb samples of a line of words (R2). -/
def cbWords : List Nat → List Nat
  | a :: _ :: _ :: _ :: rest => a :: cbWords rest
  | _ => []

/-- The Cr samples of a line of words (R2). -/
def crWords : List Nat → List Nat
  | _ :: _ :: a :: _ :: rest => a :: crWords rest
  | _ => []

/-- The row of a line of words, each sample clamped into the legal range (R54). -/
def rowOfWords (ws : List Nat) : Row :=
  ⟨((lumaWords ws).map legalLuma).toArray, ((cbWords ws).map legalChroma).toArray,
   ((crWords ws).map legalChroma).toArray⟩

/-- The stored error of word `w` of a line place. -/
def wordErrorAt (s : State) (c : Chan) (slot : Fin 8) (k w : Nat) : Option WordError :=
  storedError s.dramErrs (wordAddress c slot k w)

/-- The row a line place delivers (R48, R52, R54). -/
def readLine (s : State) (c : Chan) (slot : Fin 8) (k : Nat) : Row :=
  rowOfWords (lineSamples (wordErrorAt s c slot k) 0 (dramBlock s.dram (lineAddress c slot k) 1920))

/-- Bit errors that struck words of the line are stored: each yields the same at every read until the place
is next written (R54). -/
def strikeLine (c : Chan) (slot : Fin 8) (k : Nat) (strikes : List Strike) (s : State) : State :=
  { s with dramErrs :=
      strikes.foldl (fun errs x => putError errs (wordAddress c slot k x.word.val) x.err) s.dramErrs }

/-- The Error Capture record takes an offer (R57). -/
def offerCapture (double : Bool) (c : Chan) (slot : Fin 8) (k w : Nat) (syndrome : Byte) (x : ErrorCapture) :
    ErrorCapture :=
  match x.state, double with
  | .clear, false  => ⟨.single, c, slot, k, w, syndrome, false⟩
  | .clear, true   => ⟨.double, c, slot, k, w, syndrome, false⟩
  | .single, false => { x with later := true }
  | .single, true  => { x with state := .double, later := true }
  | .double, _     => { x with later := true }

/-- The value of the option inhibit single capture under which word `w` of the burst was read (R58): `before` are the
values it had before each SET DEVICE OPTIONS of the burst, of whose words `read` had been read then, `last` is the value
since the last of them (log entry 30). -/
def inhibitAt (last : Bool) (before : List Bool) (read : List Nat) (w : Nat) : Bool :=
  (((before.zip read).find? (fun x => decide (w < x.2))).map Prod.fst).getD last

/-- A single word: counted, raised, and offered unless inhibited when it was read (R55, R58). -/
def singleWord (c : Chan) (slot : Fin 8) (k w field : Nat) (syndrome : Byte) (inhibited : Bool) (s : State) : State :=
  let s1 := raise c .eccSingle field (s.modCh c (fun ch =>
    { ch with stats := { ch.stats with eccSingle := satAdd ch.stats.eccSingle 1 } }))
  if inhibited then s1 else { s1 with capture := offerCapture false c slot k w syndrome s1.capture }

/-- A double word: counted, raised, offered to the capture, and its line to the record's dropout list when
the read's frame and record still stand (R56, R38). -/
def doubleWord (c : Chan) (slot : Fin 8) (k w field num : Nat) (syndrome : Byte) (offer : Bool) (s : State) :
    State :=
  let s1 := raise c .eccDouble field (s.modCh c (fun ch =>
    { ch with stats := { ch.stats with eccDouble := satAdd ch.stats.eccDouble 1 } }))
  let s2 := { s1 with capture := offerCapture true c slot k w syndrome s1.capture }
  if offer then s2.modCh c (offerToRing num k .ecc) else s2

/-- One word of a read burst, handled by the class its test yields (R54 to R56); `inhibited` says under which value of
the option each word was read (R58). -/
def checkWord (c : Chan) (slot : Fin 8) (k field num : Nat) (offer : Bool) (inhibited : Nat → Bool) (s : State) (w : Nat) :
    State :=
  match wordErrorAt s c slot k w with
  | none => s
  | some e =>
    match e.cls with
    | .clean  => s
    | .single => singleWord c slot k w field e.syndrome (inhibited w) s
    | .double => doubleWord c slot k w field num e.syndrome offer s

/-- Whether a line place holds a double word. -/
def hasDouble (s : State) (c : Chan) (slot : Fin 8) (k : Nat) : Bool :=
  (List.range 240).any (fun w =>
    match wordErrorAt s c slot k w with
    | some e => decide (e.cls = .double)
    | none   => false)

/-- The field number of a read's events: the record read, or the field count when it has left the ring (R169). -/
def readField (ch : Channel) (num : Nat) (present : Bool) : Nat := if present then num else ch.fieldCount

/-- The words of a line are tested in word order (R54 to R58). -/
def checkLine (c : Chan) (slot : Fin 8) (k num : Nat) (live present : Bool) (read : List Nat) (s : State) : State :=
  (List.range 240).foldl (checkWord c slot k (readField (s.ch c) num present) num (live && present)
    (inhibitAt s.inhibitSingle s.inhibitBefore read)) s

/-- The burst is over: no value that the option had during it is of use any more (R58). -/
def forgetInhibit (s : State) : State := { s with inhibitBefore := [] }

/-- The line is handed to the engine, marked as a dropout when it holds a double word, unless its frame was
ended or abandoned (R52, R56). -/
def handLine (c : Chan) (slot : Fin 8) (k : Nat) (live : Bool) (s : State) : State :=
  if live then
    let row := if hasDouble s c slot k then none else some (readLine s c slot k)
    s.modCh c (fun ch => { ch with engine := ch.engine.map (deliverLine row) })
  else s

/-- The state at the completion of a read burst, before the engine goes on: the words of the line are tested, the
line is delivered to the requesting engine, and no burst is in flight (R52, R54 to R57). -/
def readDelivered (c : Chan) (slot : Fin 8) (k num : Nat) (live present : Bool) (strikes : List Strike) (read : List Nat)
    (s : State) : State :=
  forgetInhibit (freeArbiter (handLine c slot k live (checkLine c slot k num live present read (strikeLine c slot k strikes s))))

/-- READ_BURST_COMPLETE (R52): the line is tested and delivered to the requesting engine, which builds the rows it
can and raises its next read (R50), and the arbiter grants a pending request or goes IDLE (R51). With no read burst
in flight nothing completes. -/
def execReadBurstComplete (line : LineRead) (s : State) : Host.Outcome State Fault Refusal :=
  match s.arbiter.burst with
  | some (.read c slot k _ num live present) =>
    .next (pumpEngine c (readDelivered c slot k num live present line.strikes line.read s))
  | _ => .next s

end Sys2Proof.Machine
end

