-- ==== Sys2Proof/Machine/Output.lean ====
section
/-! DEFINITION. The output formatter: what one output line period emits (R104, R110 to R113, R53, R168), in a frame and in
the rest of one that a device reset ended (R89, R122). -/

namespace Sys2Proof.Machine

open Sys2Proof

/-- A built row of the line cache. -/
def cachedRow (f : Frame) (r : Nat) : Option Row := (f.cache.find? (fun x => x.1 == r)).map Prod.snd

/-- The active-window samples of output line `y`, when all rows its vertical taps read are present (R110, R112). -/
def formLine (sc : ScalerFrame) (f : Frame) (y : Nat) : Option Row :=
  let t := verticalRows sc y
  match cachedRow f t.1, cachedRow f t.2.1, cachedRow f t.2.2.1, cachedRow f t.2.2.2 with
  | some a, some b, some p, some q => some (horizontalPass sc (verticalPass sc y a b p q))
  | _, _, _, _ => none

/-- Rows that no later line reads leave the cache (R111). -/
def releaseRows (sc : ScalerFrame) (f : Frame) : Frame :=
  { f with cache := f.cache.filter (fun x => rowAwaited sc x.1) }

/-- The line period in progress ends its place in the count; `out` is what it emits (R104). -/
def emit (out : OutLine) (sc : ScalerFrame) (ch : Channel) : Channel :=
  { ch with out := some out, scaler := some { sc with period := sc.period + 1 } }

/-- A report window line: the first report of the window list is sent, and leaves it; blanking with none (R168). -/
def sendReport (device : BitVec 4) (ch : Channel) : Channel :=
  match ch.rep.window with
  | [] => { ch with out := some .blanking }
  | r :: rest => { ch with out := some (.report (reportWords device r)), rep := { ch.rep with window := rest } }

/-- A report window line of a frame (R104, R168). -/
def reportPeriod (device : BitVec 4) (sc : ScalerFrame) (ch : Channel) : Channel :=
  { sendReport device ch with scaler := some { sc with period := sc.period + 1 } }

/-- An active line `y` of a frame, with its active-window samples, which become the previous line, while the next output
line becomes the one after `y` (R53, R105; in a BLACK or abandoned frame too, log entry 23). -/
def emitActive (y : Nat) (window row : Row) (sc : ScalerFrame) (ch : Channel) : Channel :=
  emit (.active row) { sc with nextLine := y + 1, prevLine := some window } ch

/-- An active line of a PICTURE frame with its engine at work: formed when its rows are present; else it
underruns, repeats the previous line's active window, or black for line 0, and is counted (R53, R110, R113).
The rows no later line needs are released (R111). -/
def picturePeriod (sc : ScalerFrame) (f : Frame) (y : Nat) (ch : Channel) : Channel :=
  let formed := formLine sc f y
  let window := formed.getD (sc.prevLine.getD (blackWindow sc))
  { emitActive y window (fillAround sc window) sc ch with
    engine := some (releaseRows { sc with nextLine := y + 1 } f)
    stats := if formed.isSome then ch.stats else
      { ch.stats with readUnderruns := satAdd ch.stats.readUnderruns 1 } }

/-- An active line, by the frame's kind (R6, R113): black throughout in a BLACK frame; black inside the window
and fill outside when the frame was abandoned (R89); picture otherwise. R105 sets the next output line and the previous
line of the frame context by the lines emitted, and the model does so where no line is formed too (log entry 23). -/
def activePeriod (sc : ScalerFrame) (y : Nat) (ch : Channel) : Channel :=
  match sc.kind with
  | .black => emitActive y (blackWindow sc) (blackLine sc.raster) sc ch
  | .picture =>
    match sc.abandoned, ch.engine with
    | false, some f => picturePeriod sc f y ch
    | _, _ => emitActive y (blackWindow sc) (fillAround sc (blackWindow sc)) sc ch

/-- One line period of a frame, by its place in the frame (R104). -/
def linePeriod (device : BitVec 4) (sc : ScalerFrame) (ch : Channel) : Channel :=
  if inReportWindow sc.raster sc.period then reportPeriod device sc ch
  else match outputLineOf sc.raster sc.period with
    | some y => activePeriod sc y ch
    | none   => emit .blanking sc ch

/-- One line period of an output frame that a device reset ended (R89, R104, R122): report window lines and blanking as
in any frame, black inside the active window and the fill outside it on its active lines. -/
def endedPeriod (device : BitVec 4) (x : EndedFrame) (ch : Channel) : Channel :=
  let after := some { x with period := x.period + 1 }
  if inReportWindow x.raster x.period then { sendReport device ch with ended := after }
  else match outputLineOf x.raster x.period with
    | some _ =>
      { ch with ended := after, out := some (.active (windowLine x.raster x.aspect x.fill (blackSamples x.raster x.aspect))) }
    | none   => { ch with ended := after, out := some .blanking }

/-- OUTPUT_LINE_PERIOD (R104): the next line period of channel `c`'s output frame begins and its line is
emitted; rows released let the engine go on (R87, R111). An output frame ended by a device reset goes on to its end
(R89). Before the first frame there is no line period. -/
def execOutputLinePeriod (c : Chan) (s : State) : Host.Outcome State Fault Refusal :=
  match (s.ch c).scaler, (s.ch c).ended with
  | some sc, _      => .next (pumpEngine c (s.modCh c (linePeriod s.deviceAddress sc)))
  | none,    some x => .next (s.modCh c (endedPeriod s.deviceAddress x))
  | none,    none   => .next s

end Sys2Proof.Machine
end

