-- ==== Sys2Proof/Machine/Channel.lean ====
section
/-! DEFINITION. Chapter 8: the Channel Controller's work at an output frame start (R126 to R134, R138), the
entry to STOPPED (R44, R132), and with it the engine's and the Scaler's work there (R84, R88, R99, R105). -/

namespace Sys2Proof.Machine

open Sys2Proof

/-! ### Ending the frame in progress (R88, R99, R80) -/

/-- Whether a frame ended by an output frame start reports a fallback excess (R99). -/
def reportsExcess (f : Frame) : Bool :=
  f.first && (match f.mode with | .film _ => true | .video => false) && decide (f.fallbackLimit < f.fallback)

/-- An output frame start ends the frame in progress: it publishes, and may report an excess (R88, R99, R80). -/
def endFrame (c : Chan) (s : State) : State :=
  match (s.ch c).engine with
  | none => s
  | some f =>
    (leaveFrame c s).modCh c (fun ch =>
      if reportsExcess f then { ch with cad := { ch.cad with track := fallbackExcess ch.cad.track } } else ch)

/-! ### Scheduling (R127 to R130) -/

/-- The eligible list of a ring (R127): COMPLETE, with a COMPLETE successor, and newer than the last output field. -/
def eligible (last : Option Nat) : List FieldRecord → List FieldRecord
  | [] => []
  | [_] => []
  | x :: y :: rest =>
    if x.state = .complete ∧ y.state = .complete ∧ availableAfter last x.num = true then
      x :: eligible last (y :: rest)
    else eligible last (y :: rest)

/-- Whether a decision is FILM. -/
def isFilm (d : Option Decision) : Bool :=
  match d with
  | some (.film _) => true
  | some .video    => false
  | none           => false

/-- The drop count of an eligible list of 3 or more, with film rounding (R130). -/
def dropCount (e : List FieldRecord) : Nat :=
  let d := e.length - 2
  if isFilm ((e[d]?).bind FieldRecord.decision) = true ∧ d % 2 = 1 then d + 1 else d

/-- A record is taken as the new centre (R128). -/
def takeCentre (c : Chan) (num : Nat) (s : State) : State :=
  (release c num (s.modCh c (fun ch => { ch with ctl := { ch.ctl with lastOutput := some num } }))).modCh c
    (advanceUses num)

/-- The pinned centre of a ring: the record of the last output field, when pinned (R39, R123). -/
def pinnedCentre (ch : Channel) : Option FieldRecord :=
  ch.ctl.lastOutput.bind (fun num => pinnedAt ch.ring (ringPlace num ch.ring))

/-- REPEAT: the pinned centre is taken again, counted and reported (R129). The Boolean says the frame
carries picture. -/
def repeatCentre (c : Chan) (s : State) : State × Bool :=
  match pinnedCentre (s.ch c) with
  | none   => (s, false)
  | some r =>
    (raise c .slipRepeat r.num (s.modCh c (fun ch =>
      { advanceUses r.num ch with
        stats := { ch.stats with fieldsRepeated := satAdd ch.stats.fieldsRepeated 1 } })), true)

/-- DROP: the `d` oldest of the eligible list are skipped and the next is taken; the drop is counted by `d`
and reported once, with the centre taken (R130, R169). -/
def dropFields (c : Chan) (d num : Nat) (s : State) : State :=
  raise c .slipDrop num ((takeCentre c num s).modCh c (fun ch =>
    { ch with stats := { ch.stats with fieldsDropped := satAdd ch.stats.fieldsDropped d } }))

/-- Scheduling in RUNNING: the length of the eligible list selects take, REPEAT or DROP (R127). -/
def schedule (c : Chan) (s : State) : State × Bool :=
  match eligible (s.ch c).ctl.lastOutput (s.ch c).ring with
  | [] => repeatCentre c s
  | [x] => (takeCentre c x.num s, true)
  | [x, _] => (takeCentre c x.num s, true)
  | x :: y :: z :: rest =>
    let e := x :: y :: z :: rest
    match e[dropCount e]? with
    | some r => (dropFields c (dropCount e) r.num s, true)
    | none   => (s, false)

/-- COMPLETE records of a ring (R126). -/
def completeCount (ring : List FieldRecord) : Nat := ring.countP (fun r => decide (r.state = .complete))

/-- The loss action at an output frame start in LOST (R134, R41). -/
def lossActionWork (c : Chan) (s : State) : State × Bool :=
  match (s.ch c).ctl.frame.lossAction, pinnedCentre (s.ch c) with
  | .hold, some r => (s.modCh c (advanceUses r.num), true)
  | .hold, none   => (s, false)
  | .black, _     => (s, false)

/-! ### Entry to STOPPED (R44, R28, R82, R132) -/

/-- The channel's own part of an entry to STOPPED (R28, R44, R82, R132). -/
def stopChannel (ch : Channel) : Channel :=
  clearCadence { ch with
    recv := { ch.recv with assembly := [], buffer := [], accepted := false }
    ctl := { ch.ctl with state := .stopped, lastOutput := none, halt := none } }

/-- HALTING ends: the frame in progress is ended, the ring flushed, the channel enters STOPPED and the
deferred HALT answer takes its place (R132, R161). -/
def completeHalt (c : Chan) (tag : Byte) (s : State) : State :=
  answer c tag 5 .done none [] ((flushRing c (endFrame c s)).modCh c stopChannel)

/-! ### The work at an output frame start (R126, R132, R138) -/

/-- Pending frame values stored at an earlier output frame start come into force (R138). -/
def frameValuesInForce (n : Nat) (ch : Channel) : Channel :=
  match ch.ctl.pendingFrame with
  | some (p, stored) =>
    if stored < n then { ch with ctl := { ch.ctl with frame := p, pendingFrame := none } } else ch
  | none => ch

/-- STARTING with two COMPLETE records schedules (R126); `enter` is the state it then takes. -/
def startingWork (c : Chan) (enter : ChanState) (s : State) : State × Bool :=
  if 2 ≤ completeCount (s.ch c).ring then
    schedule c (s.modCh c (fun ch => { ch with ctl := { ch.ctl with state := enter } }))
  else (s, false)

/-- The work the origin state would do, in HALTING entered at this same start (R132). -/
def originWork (c : Chan) (origin : ChanState) (s : State) : State × Bool :=
  match origin with
  | .running  => schedule c s
  | .starting => startingWork c .halting s
  | .lost     => lossActionWork c s
  | .stopped  => (s, false)
  | .halting  => (s, false)

/-- HALTING at output frame start `n` (R132). -/
def haltingWork (c : Chan) (n : Nat) (s : State) : State × Bool :=
  match (s.ch c).ctl.halt with
  | none   => (s, false)
  | some r => if r.entry < n then (completeHalt c r.tag s, false) else originWork c r.origin s

/-- The Channel Controller's work at output frame start `n`: the state after it, and whether the frame
carries picture (R6, R124, R126 to R134). -/
def chooseFrame (c : Chan) (n : Nat) (s : State) : State × Bool :=
  match (s.ch c).ctl.state with
  | .stopped  => (s, false)
  | .starting => startingWork c .running s
  | .running  => schedule c s
  | .halting  => haltingWork c n s
  | .lost     => lossActionWork c s

/-! ### Beginning the next frame (R84, R105) -/

/-- The format a frame beginning at output frame start `n` reads: items stored at that start do not reach it (R10). -/
def formatAt (n : Nat) (x : Control) : Format :=
  match x.priorFormat with
  | some (f, m) => if m = n then f else x.format
  | none => x.format

/-- The engine begins a frame on the last output field (R84). -/
def beginFrame (t : Tables) (n : Nat) (picture : Bool) (ch : Channel) : Channel :=
  { ch with engine :=
      if picture then ch.ctl.lastOutput.bind (fun num => newFrame t n ch num) else none }

/-- The Scaler latches its frame context (R105). -/
def latchScaler (t : Tables) (family : Family) (n : Nat) (ch : Channel) : Channel :=
  let f := formatAt n ch.ctl
  let frame : ScalerFrame :=
    { kind := if ch.engine.isSome then .picture else .black
      raster := f.raster, aspect := f.aspect, fill := f.fill, vset := f.vset, hset := f.hset
      vcoefs := tableImage t (.coef f.vset), hcoefs := tableImage t (.coef f.hset)
      bandFirst := (sourceBand f.aspect f.standard).1, bandCount := (sourceBand f.aspect f.standard).2
      nextLine := 0, prevLine := none, period := 0, family := family, abandoned := false, begun := n }
  { ch with scaler := some frame, ended := none }

/-- One channel's controller, engine and Scaler at output frame start `n` (R120). When the entry to STOPPED of
this start has been done by its own row, the controller has nothing left to do there. -/
def controlWork (c : Chan) (n : Nat) (s : State) : State :=
  let s1 := endFrame c s
  let res := if (s1.ch c).haltDone then (s1, false) else chooseFrame c n (s1.modCh c (frameValuesInForce n))
  pumpEngine c (res.1.modCh c (fun ch =>
    latchScaler s.tables s.rtu.family n (beginFrame s.tables n res.2 ch)))

/-- HALT_COMPLETE (R132): at the output frame start now arriving, a channel whose HALT was taken at an
earlier one enters STOPPED, ahead of the start's other work. Otherwise nothing completes. -/
def execHaltComplete (c : Chan) (s : State) : Host.Outcome State Fault Refusal :=
  match (s.ch c).ctl.state, (s.ch c).ctl.halt with
  | .halting, some r =>
    if r.entry < s.startNo + 1 ∧ (s.ch c).haltDone = false then
      .next ((completeHalt c r.tag (s.modCh c (frameValuesInForce (s.startNo + 1)))).modCh c
        (fun ch => { ch with haltDone := true }))
    else .next s
  | _, _ => .next s

end Sys2Proof.Machine
end

