-- ==== Sys2Proof/Machine/Loader.lean ====
section
/-! DEFINITION. Chapter 9: the Table Loader's work at an output frame start (R150, R152) and the swap's effect
on its readers (R81, R84, R105, R150). -/

namespace Sys2Proof.Machine

open Sys2Proof

/-- The load is abandoned: IDLE, the shadow emptied, LOAD_ABANDONED on the owner (R152). -/
def abandonLoad (owner : Chan) (s : State) : State :=
  raise owner .loadAbandoned (s.ch owner).fieldCount { s with loader := .idle, shadow := [] }

/-- A frame begun at the swap's output frame start reads the new curve (R150, R84). -/
def refreshCurve (n : Nat) (i : Fin 4) (image : List Byte) (f : Frame) : Frame :=
  if f.begun = n ∧ f.curveNo = i then { f with curve := image } else f

/-- A frame context latched at the swap's output frame start reads the new coefficients (R150, R105). -/
def refreshCoefs (n : Nat) (i : Fin 4) (image : List Byte) (f : ScalerFrame) : ScalerFrame :=
  if f.begun = n then
    { f with
      vcoefs := if f.vset = i then image else f.vcoefs
      hcoefs := if f.hset = i then image else f.hcoefs }
  else f

/-- The swap is handed to one channel's readers (R150 step 2). -/
def handSwap (n : Nat) (e : TableEntry) (image : List Byte) (c : Chan) (s : State) : State :=
  match e with
  | .pattern i => swapTracker i c s
  | .coef i    => s.modCh c (fun ch => { ch with scaler := ch.scaler.map (refreshCoefs n i image) })
  | .curve i   => s.modCh c (fun ch => { ch with engine := ch.engine.map (refreshCurve n i image) })

/-- The swap of a committed load at output frame start `n` (R150). -/
def swapTable (n : Nat) (owner : Chan) (e : TableEntry) (tag : Byte) (s : State) : State :=
  let image := s.shadow
  let s1 := eachChan (handSwap n e image) { s with tables := setTableImage s.tables e image }
  answer owner tag 18 .done none [] { s1 with loader := .idle, shadow := [] }

/-- The loader at output frame start `n`: the idle count advances, or a load committed at an earlier start
swaps (R150, R152). -/
def loaderAdvance (n : Nat) (s : State) : State :=
  match s.loader with
  | .idle => s
  | .loading owner e received idleCount =>
    if 100 ≤ idleCount + 1 then abandonLoad owner s
    else { s with loader := .loading owner e received (idleCount + 1) }
  | .commitPending owner e tag start => if start < n then swapTable n owner e tag s else s

/-- The loader's work of an output frame start, once per start (R120). -/
def loaderWork (n : Nat) (s : State) : State :=
  if s.loaderDone then s else { loaderAdvance n s with loaderDone := true }

/-- LOAD_ABANDONED (R152): the idle count's advance at the output frame start now arriving, when it brings the
count to 100. Otherwise no load is abandoned. -/
def execLoadAbandoned (s : State) : Host.Outcome State Fault Refusal :=
  match s.loader with
  | .loading _ _ _ idleCount =>
    if 100 ≤ idleCount + 1 ∧ s.loaderDone = false then .next (loaderWork (s.startNo + 1) s) else .next s
  | _ => .next s

/-- TABLE_SWAP (R150): at the output frame start now arriving, a load committed at an earlier one swaps, ahead
of the start's other work. Otherwise nothing swaps. -/
def execTableSwap (s : State) : Host.Outcome State Fault Refusal :=
  match s.loader with
  | .commitPending _ _ _ start =>
    if start < s.startNo + 1 ∧ s.loaderDone = false then .next (loaderWork (s.startNo + 1) s) else .next s
  | _ => .next s

end Sys2Proof.Machine
end

