-- ==== Sys2Proof/Machine/Packets.lean ====
section
/-! DEFINITION. Chapters 10 and 11: the checking and sorting of packets (R156 to R158, R172), the insertion of
reports (R168), and CONTROL_PACKET. -/

namespace Sys2Proof.Machine

open Sys2Proof

/-! ### Insertion (R168) -/

/-- Reports are removed from the head of the queue until the window list holds 4 or the queue none (R168 step 2). -/
def insertReports (ch : Channel) : Channel :=
  let n := 4 - ch.rep.window.length
  { ch with rep := { ch.rep with
      window := ch.rep.window ++ ch.rep.queue.take n
      queue := ch.rep.queue.drop n } }

/-- The Report Unit's work at an output frame start: insertion, then the held status (R168, R171). -/
def reportWork (c : Chan) (s : State) : State := deliverHeld c 0 (s.modCh c insertReports)

/-! ### Checking and sorting (R156 to R158, R172) -/

/-- A discarded directive or packet is counted, and reported with the channel's field count (R156, R158, R169). -/
def discardDirective (c : Chan) (k : EventKind) (s : State) : State :=
  raise c k (s.ch c).fieldCount (s.modCh c (fun ch =>
    { ch with stats := { ch.stats with directivesDiscarded := satAdd ch.stats.directivesDiscarded 1 } }))

/-- A directive joins its channel's queue, or is discarded when the queue holds 8 (R158). -/
def joinDirective (c : Chan) (d : Directive) (s : State) : State :=
  if (s.ch c).pku.dirQueue.length < 8 then
    s.modCh c (fun ch => { ch with pku := { ch.pku with dirQueue := ch.pku.dirQueue ++ [d] } })
  else discardDirective c .directiveOverrun s

/-- A packet that passed its checks is sorted by its address (R157). -/
def sortPacket (c : Chan) (bytes : List Byte) (s : State) : State :=
  if packetAddress bytes = s.deviceAddress.toNat then joinDirective c (packetDirective bytes) s
  else offerRelay c bytes s

/-- A window line handed on is checked, and its packet sorted or discarded (R156). -/
def checkLineOf (c : Chan) (ws : List LineWord) (s : State) : State :=
  match checkedPacket ws with
  | some bytes => sortPacket c bytes s
  | none       => discardDirective c .checksumFail s

/-- CONTROL_PACKET (R156): the oldest window line handed on by channel `c` is checked and its packet sorted.
With none handed on there is nothing to check. -/
def execControlPacket (c : Chan) (s : State) : Host.Outcome State Fault Refusal :=
  match (s.ch c).pku.handed with
  | [] => .next s
  | ws :: rest =>
    .next (checkLineOf c ws (s.modCh c (fun ch => { ch with pku := { ch.pku with handed := rest } })))

end Sys2Proof.Machine
end

