-- ==== Sys2Proof/Machine/Resets.lean ====
section
/-! DEFINITION. The resets: power-on and pin reset (R47 and each chapter's reset table), the device restart
(R165), and what a reset does to a write burst it cuts short (R52). -/

namespace Sys2Proof.Machine

open Sys2Proof

/-! ### A write burst cut short (R52) -/

/-- One word of a line place after the write burst of its line was cut short (R52; log entry 15). -/
def cutWordAt (c : Chan) (slot : Fin 8) (k : Nat) (words : List Nat) (draw : Nat) (s : State) (w : Nat) : State :=
  let a := wordAddress c slot k w
  match Config.cutWord draw w with
  | .kept     => s
  | .written  =>
    { s with dram := dramWrite s.dram a (packLine ((words.drop (6 * w)).take 6))
             dramErrs := clearErrorsAt s.dramErrs a 8 }
  | .torn v e => { s with dram := dramWrite s.dram a (wordBytes v.toNat), dramErrs := putError s.dramErrs a e }

/-- A device reset ends a burst in flight at once; a write's line place may be left partly written (R52). -/
def cutBurst (s : State) : State :=
  match s.arbiter.burst with
  | some (.write c slot k words) =>
    { (List.range 240).foldl (cutWordAt c slot k words s.draws) s with draws := s.draws + 1 }
  | _ => s

/-! ### Power-on and pin reset -/

/-- The bytes of the DRAM (R48): 64 MiB. -/
def dramSize : Nat := 67108864

/-- What the DRAM holds when power comes, in canonical form. -/
def foundBytes (found : List Host.Cell) : List Host.Cell :=
  found.foldl (fun m x => if x.1 < dramSize then dramWrite m x.1 [x.2] else m) []

/-- The words found with check bits that do not match. -/
def foundErrors (errs : List (Nat × WordError)) : List (Nat × WordError) :=
  errs.foldl (fun l x => if x.1 < dramSize then putError l x.1 x.2 else l) []

/-- POWER_ON_RESET (R47, R29, R59, R82, R103, R122, R140, R142, R154, R157, R158, R176, R177): every item
takes its power-on value; the DRAM holds what it is found to hold, and the address straps are read. -/
def execPowerOnReset (straps : BitVec 4) (found : List Host.Cell) (errs : List (Nat × WordError)) (s : State) :
    Host.Outcome State Fault Refusal :=
  .next { State.reset with
    dram := foundBytes found, dramErrs := foundErrors errs, deviceAddress := straps
    draws := s.draws, pending := s.pending }

/-- What is left of the output frame of a Scaler frame context at a device reset: black inside the active window and the
fill outside it, where a BLACK frame has black (R6, R89, R122; log entry 29). -/
def endedOf (x : ScalerFrame) : EndedFrame :=
  { raster := x.raster, aspect := x.aspect, period := x.period, family := x.family
    fill := match x.kind with
      | .picture => x.fill
      | .black   => blackColour }

/-- The output frame in progress when a device reset takes the Scaler frame context away; one already without its context
goes on (R89, R122). -/
def endedFrame (ch : Channel) : Option EndedFrame :=
  match ch.scaler with
  | some x => some (endedOf x)
  | none   => ch.ended

/-- One channel after a pin reset: every item of the channel at its reset value, with no Scaler frame context, and the
rest of its output frame in progress left to the output formatter (R89, R122). -/
def pinResetChannel (ch : Channel) : Channel :=
  { Channel.reset with ended := endedFrame ch, out := ch.out }

/-- PIN_RESET (R47): as power-on, except that the DRAM contents are kept and that the output frame in progress goes on
to its end without its Scaler frame context (R89, R122). -/
def execPinReset (straps : BitVec 4) (s : State) : Host.Outcome State Fault Refusal :=
  let t := cutBurst s
  .next { State.reset with
    chans := ⟨pinResetChannel s.chans.at0, pinResetChannel s.chans.at1, pinResetChannel s.chans.at2,
              pinResetChannel s.chans.at3⟩
    dram := t.dram, dramErrs := t.dramErrs, deviceAddress := straps, resetCause := .resetPin
    draws := t.draws, pending := t.pending }

/-! ### Device restart (R165) -/

/-- The controller's context after a device restart or a channel reset (R140): STOPPED, with the format and
the parameters kept and pending values in force. -/
def restartControl (x : Control) : Control :=
  { x with
    state := .stopped
    field := x.pendingField.getD x.field
    frame := (x.pendingFrame.map Prod.fst).getD x.frame
    pendingField := none, pendingFrame := none, lastOutput := none, halt := none }

/-- One channel after a device restart (R29, R47, R82, R103, R122, R140, R158, R177). The Scaler frame
context is none, the rest of the output frame is black in its window (R89, R122), and no directive more is taken at this output frame start (R165). -/
def restartChannel (ch : Channel) : Channel :=
  { Channel.reset with
    ended := endedFrame ch
    out := ch.out
    ctl := restartControl ch.ctl
    pku := ⟨ch.pku.handed, [], 2⟩
    rep := ⟨[restartEvent], [], emptyHeld, ch.rep.mask⟩
    lossDone := ch.lossDone
    haltDone := ch.haltDone }

/-- The device restart (R165). An output frame start at which it has been taken already is not one after the reset for
R24; the start ahead of which its own row takes it is (DESIGN CHOICE, log entry 31). -/
def deviceRestart (s : State) : State :=
  let t := cutBurst s
  { t with
    chans := ⟨restartChannel s.chans.at0, restartChannel s.chans.at1, restartChannel s.chans.at2,
              restartChannel s.chans.at3⟩
    arbiter := Arbiter.reset
    loader := .idle, shadow := []
    startSeen := false
    probe := .idle
    inhibitBefore := []
    resetCause := .restartDirective }

end Sys2Proof.Machine
end

