-- ==== Sys2Proof/Machine/Directives.lean ====
section
/-! DEFINITION. The directives: what each does when it is taken (R10, R125, R131, R137, R139, R146 to R148,
R151, R153, R163, R164, R165), each as an operation on the state; and their taking (R159, R160). -/

namespace Sys2Proof.Machine

open Sys2Proof

/-! ### Channel directives -/

/-- An optional number, 0 when absent. -/
def orZero (x : Option Nat) : Nat := x.getD 0

/-- The pattern and phase bytes of PROBE: 255 and 255 when absent (R163). -/
def patternBytes (k : Track) : List Byte :=
  match trackPattern k with
  | some (pat, ph) => [byteOf pat, byteOf ph]
  | none => [255, 255]

/-- The presence byte of PROBE (R163). -/
def presenceByte (ch : Channel) : Byte :=
  byteOf ((if ch.ctl.lastOutput.isSome then 1 else 0) + (if ch.recv.latestOffset.isSome then 2 else 0))

/-- The twenty data bytes of PROBE (R163). -/
def probeData (ch : Channel) : List Byte :=
  [byteOf (chanStateCode ch.ctl.state), byteOf (trackCode (trackName ch.cad.track))]
  ++ patternBytes ch.cad.track ++ [presenceByte ch]
  ++ bytes4 (orZero ch.ctl.lastOutput) ++ bytes2 (orZero ch.recv.latestOffset) ++ bytes2 (twos16 ch.recv.drift)
  ++ bytes2 ch.rep.held.kinds.toNat ++ bytes4 ch.rep.held.first ++ [byteOf ch.rep.held.count]

/-- The held status is emptied (R163, R171). -/
def clearHeld (ch : Channel) : Channel := { ch with rep := { ch.rep with held := emptyHeld } }

/-- PROBE (R163). -/
def doProbe (c : Chan) (d : Directive) (s : State) : State :=
  answerDone c d (probeData (s.ch c)) (s.modCh c clearHeld)

/-- The format held before the first SET FORMAT of output frame start `n`, kept for the frame that begins there (R10). -/
def keepPrior (n : Nat) (x : Control) : Option (Format × Nat) :=
  match x.priorFormat with
  | some (f, m) => if m = n then some (f, m) else some (x.format, n)
  | none => some (x.format, n)

/-- SET FORMAT (R10). -/
def doSetFormat (c : Chan) (n : Nat) (d : Directive) (s : State) : State :=
  match (s.ch c).ctl.state, formatOf? d.payload with
  | .stopped, some f =>
    answerDone c d [] (s.modCh c (fun ch =>
      { ch with ctl := { ch.ctl with format := f, priorFormat := keepPrior n ch.ctl } }))
  | .stopped, none => answerRefused c d .badArgument [] s
  | _, _ => answerBusy c d s

/-- The values of a SET PARAMETERS are stored, and its mask replaces the event mask (R137, R171). -/
def storeParameters (n : Nat) (f : FieldParams) (fr : FrameParams) (mask : BitVec 16) (ch : Channel) : Channel :=
  { ch with
    ctl := { ch.ctl with pendingField := some f, pendingFrame := some (fr, n) }
    rep := { ch.rep with mask := mask } }

/-- The kinds of the held status that a mask change takes out of the event mask (R171). -/
def unmaskedByChange (x : ReportPort) (mask : BitVec 16) : BitVec 16 := x.held.kinds &&& x.mask &&& ~~~mask

/-- SET PARAMETERS (R137). A mask change that unmasks a held kind delivers the held status ahead of the
answer, whose place counts as taken (R171). -/
def doSetParameters (c : Chan) (n : Nat) (d : Directive) (s : State) : State :=
  match parametersOf? d.payload with
  | none => answerRefused c d .badArgument [] s
  | some (f, fr, mask) =>
    let s1 := s.modCh c (storeParameters n f fr mask)
    answerDone c d [] (if unmaskedByChange (s.ch c).rep mask ≠ 0 then deliverHeld c 1 s1 else s1)

/-- START (R125), compared with the family that the RTU holds when START is taken: within the command of a family change
the new one, by its own row ahead of that command the old one (DESIGN CHOICE, log entry 32). -/
def doStart (c : Chan) (d : Directive) (s : State) : State :=
  if (s.ch c).ctl.state = .stopped then
    if familyOf (s.ch c).ctl.format.standard = s.rtu.family then
      answerDone c d [] (s.modCh c (fun ch => { ch with ctl := { ch.ctl with state := .starting } }))
    else answerRefused c d .rateMismatch [] s
  else answerBusy c d s

/-- A channel enters HALTING at output frame start `n` (R131). -/
def enterHalting (n : Nat) (tag : Byte) (ch : Channel) : Channel :=
  { ch with ctl := { ch.ctl with state := .halting, halt := some ⟨ch.ctl.state, n, tag⟩ } }

/-- HALT (R131): the answer is deferred when it enters HALTING. -/
def doHalt (c : Chan) (n : Nat) (d : Directive) (s : State) : State :=
  match (s.ch c).ctl.state with
  | .starting => s.modCh c (enterHalting n d.tag)
  | .running  => s.modCh c (enterHalting n d.tag)
  | .lost     => s.modCh c (enterHalting n d.tag)
  | .stopped  => answerDone c d [] s
  | .halting  => answerDone c d [] s

/-- The channel's own part of a channel reset (R29, R82, R139, R140, R173, R177). -/
def resetChannelPart (ch : Channel) : Channel :=
  clearHeld (clearCadence { ch with
    recv := Receiver.reset, fieldCount := 0, ctl := restartControl ch.ctl, stats := zeroStats })

/-- A channel reset of the probed channel returns an ARMED probe to IDLE (R174). -/
def probeAfterReset (c : Chan) (p : Probe) : Probe :=
  match p with
  | .armed arm => if arm.chan = c then .idle else .armed arm
  | .idle => .idle
  | .captured arm x => .captured arm x

/-- The deferred HALT answer of a reset channel (R139, R161). -/
def abortHalt (c : Chan) (r : Option HaltRecord) (s : State) : State :=
  match r with
  | some x => answer c x.tag 5 .aborted none [] s
  | none   => s

/-- The deferred LOAD COMMIT answer of a reset owner (R152, R161). -/
def abortCommit (c : Chan) (l : LoadState) (s : State) : State :=
  match l with
  | .commitPending owner _ tag _ => if owner = c then answer c tag 18 .aborted none [] s else s
  | .idle => s
  | .loading _ _ _ _ => s

/-- Whether channel `c` owns the open load. -/
def ownsLoad (c : Chan) (l : LoadState) : Bool :=
  match l with
  | .idle => false
  | .loading owner _ _ _ => decide (owner = c)
  | .commitPending owner _ _ _ => decide (owner = c)

/-- RESET CHANNEL (R139): the answers in the order of R161, then LOAD_ABANDONED (R152). -/
def doResetChannel (c : Chan) (d : Directive) (s : State) : State :=
  let s1 := (flushRing c (abandonFrame c s)).modCh c resetChannelPart
  let s2 := { s1 with
    probe := probeAfterReset c s.probe
    loader := if ownsLoad c s.loader then .idle else s.loader
    shadow := if ownsLoad c s.loader then [] else s.shadow }
  let s3 := answerDone c d [] (abortCommit c s.loader (abortHalt c (s.ch c).ctl.halt s2))
  if ownsLoad c s.loader then raise c .loadAbandoned (s3.ch c).fieldCount s3 else s3

/-- READ STATS (R163, R173). -/
def doReadStats (c : Chan) (d : Directive) (s : State) : State :=
  answerDone c d ((statsList (s.ch c).stats).flatMap bytes2)
    (if arg1 d.payload 0 ≠ 0 then s.modCh c (fun ch => { ch with stats := zeroStats }) else s)

/-! ### Load directives (R146 to R148, R151, R153) -/

/-- LOAD BEGIN (R146). -/
def doLoadBegin (c : Chan) (d : Directive) (s : State) : State :=
  match s.loader, entryOf? (arg1 d.payload 0) (arg1 d.payload 1) with
  | .idle, none => answerRefused c d .badArgument [] s
  | .idle, some e =>
    if readOnlyEntry e then answerRefused c d .readOnly [] s
    else answerDone c d [] { s with loader := .loading c e 0 0, shadow := [] }
  | .loading _ _ _ _, _ => answerBusy c d s
  | .commitPending _ _ _ _, _ => answerBusy c d s

/-- LOAD SEGMENT (R147): the data run from the third payload byte to its end (R162). -/
def doLoadSegment (c : Chan) (d : Directive) (s : State) : State :=
  match s.loader with
  | .idle => answerRefused c d .noLoad [] s
  | .commitPending _ _ _ _ => answerBusy c d s
  | .loading owner e received _ =>
    let data := d.payload.drop 2
    if owner ≠ c then answerBusy c d s
    else if arg2 d.payload 0 = received ∧ received + data.length ≤ entrySize e then
      answerDone c d []
        { s with loader := .loading owner e (received + data.length) 0, shadow := s.shadow ++ data }
    else answerRefused c d .sequence [] s

/-- LOAD COMMIT at output frame start `n` (R148, R149): the answer is deferred when the shadow passes. -/
def doLoadCommit (c : Chan) (n : Nat) (d : Directive) (s : State) : State :=
  match s.loader with
  | .idle => answerRefused c d .noLoad [] s
  | .commitPending _ _ _ _ => answerBusy c d s
  | .loading owner e received _ =>
    if owner ≠ c then answerBusy c d s
    else if received < entrySize e then answerRefused c d .incomplete [] s
    else match faultOffset e s.shadow with
      | some i => answerRefused c d .validation (bytes2 i) { s with loader := .idle, shadow := [] }
      | none   => { s with loader := .commitPending owner e d.tag n }

/-- LOAD ABORT (R151). -/
def doLoadAbort (c : Chan) (d : Directive) (s : State) : State :=
  match s.loader with
  | .idle => answerDone c d [] s
  | .commitPending _ _ _ _ => answerBusy c d s
  | .loading owner _ _ _ =>
    if owner = c then answerDone c d [] { s with loader := .idle, shadow := [] } else answerBusy c d s

/-- READ TABLE (R153). -/
def doReadTable (c : Chan) (d : Directive) (s : State) : State :=
  match entryOf? (arg1 d.payload 0) (arg1 d.payload 1) with
  | none => answerRefused c d .badArgument [] s
  | some e =>
    let offset := arg2 d.payload 2
    let count := arg1 d.payload 4
    if 192 < count ∨ entrySize e < offset + count then answerRefused c d .badArgument [] s
    else answerDone c d (((tableImage s.tables e).drop offset).take count) s

/-! ### Device directives (R164) -/

/-- The load state's eight bytes in DEVICE STATUS (R176). -/
def loadStatusBytes (l : LoadState) : List Byte :=
  match l with
  | .idle => [0, 0, 0, 0, 0, 0, 0, 0]
  | .loading owner e received idleCount =>
    [1, byteOf (chanNat owner), byteOf (tableCode e), byteOf (entryNumber e)] ++ bytes2 received
      ++ [byteOf idleCount, 0]
  | .commitPending owner e tag _ =>
    [2, byteOf (chanNat owner), byteOf (tableCode e), byteOf (entryNumber e), 0, 0, 0, tag]

/-- The Error Capture record's eight bytes in DEVICE STATUS (R176). -/
def captureBytes (x : ErrorCapture) : List Byte :=
  [byteOf (captureCode x.state), byteOf (chanNat x.chan), byteOf x.slot.val] ++ bytes2 x.line
    ++ [byteOf x.word, x.syndrome, if x.later then 1 else 0]

/-- The twenty-one data bytes of DEVICE STATUS (R176). -/
def deviceStatusData (s : State) : List Byte :=
  [byteOf (causeCode s.resetCause), byteOf (rtuCode s.rtu.state), byteOf (familyCode s.rtu.family)]
  ++ loadStatusBytes s.loader ++ captureBytes s.capture
  ++ [byteOf (probeCode s.probe), s.deviceAddress.zeroExtend 8]

/-- DEVICE STATUS (R164, R176). -/
def doDeviceStatus (c : Chan) (d : Directive) (s : State) : State := answerDone c d (deviceStatusData s) s

/-- CLEAR ERRORS (R59, R164). -/
def doClearErrors (c : Chan) (d : Directive) (s : State) : State :=
  answerDone c d [] { s with capture := ErrorCapture.clear }

/-- The option inhibit single capture is set. The words that a burst in flight has read before it keep the value they
were read under (R58). -/
def setInhibit (v : Bool) (s : State) : State :=
  { s with
    inhibitSingle := v
    inhibitBefore := if isRead s.arbiter.burst then s.inhibitBefore ++ [s.inhibitSingle] else [] }

/-- SET DEVICE OPTIONS (R58, R162, R164). -/
def doSetDeviceOptions (c : Chan) (d : Directive) (s : State) : State :=
  match arg1 d.payload 0 with
  | 0 => answerDone c d [] (setInhibit false s)
  | 1 => answerDone c d [] (setInhibit true s)
  | _ => answerRefused c d .badArgument [] s

/-- ARM PROBE (R164, R174). -/
def doArmProbe (c : Chan) (d : Directive) (s : State) : State :=
  match armOf? d.payload with
  | none => answerRefused c d .badArgument [] s
  | some arm =>
    if arm.row < frameRows (s.ch arm.chan).ctl.format.standard then
      answerDone c d [] { s with probe := .armed arm }
    else answerRefused c d .badArgument [] s

/-- The arm record's eight bytes in READ PROBE (R164). -/
def armBytes (arm : Arm) : List Byte :=
  [byteOf (chanNat arm.chan)] ++ bytes2 arm.row ++ bytes2 arm.column ++ [byteOf (conditionCode arm.cond)]
    ++ bytes2 arm.m

/-- The capture record's sixteen bytes in READ PROBE (R164). -/
def captureRecordBytes (x : Account) : List Byte :=
  bytes4 x.field ++ [byteOf (modeCode x.mode)] ++ bytes2 x.s ++ bytes2 (orZero x.t)
    ++ [if x.t.isSome then 1 else 0] ++ bytes2 x.m ++ [byteOf x.w] ++ bytes2 x.o ++ [byteOf (trackCode x.track)]

/-- The twenty-five data bytes of READ PROBE; bytes of a record not present are 0 (R164). -/
def readProbeData (p : Probe) : List Byte :=
  match p with
  | .idle => List.replicate 25 0
  | .armed arm => [1] ++ armBytes arm ++ List.replicate 16 0
  | .captured arm x => [2] ++ armBytes arm ++ captureRecordBytes x

/-- READ PROBE (R164, R175). -/
def doReadProbe (c : Chan) (d : Directive) (s : State) : State := answerDone c d (readProbeData s.probe) s

/-! ### Taking a directive (R159, R160) -/

/-- What a directive does at its taking at output frame start `n`. -/
def carryOutKind (k : DirKind) (c : Chan) (n : Nat) (d : Directive) (s : State) : State :=
  match k with
  | .probe            => doProbe c d s
  | .setFormat        => doSetFormat c n d s
  | .setParameters    => doSetParameters c n d s
  | .start            => doStart c d s
  | .halt             => doHalt c n d s
  | .resetChannel     => doResetChannel c d s
  | .readStats        => doReadStats c d s
  | .loadBegin        => doLoadBegin c d s
  | .loadSegment      => doLoadSegment c d s
  | .loadCommit       => doLoadCommit c n d s
  | .loadAbort        => doLoadAbort c d s
  | .readTable        => doReadTable c d s
  | .deviceStatus     => doDeviceStatus c d s
  | .clearErrors      => doClearErrors c d s
  | .setDeviceOptions => doSetDeviceOptions c d s
  | .armProbe         => doArmProbe c d s
  | .readProbe        => doReadProbe c d s
  | .restartDevice    => deviceRestart s

/-- A directive is carried out: an unknown kind and a short payload are judged first (R160; log entry 18). -/
def carryOut (c : Chan) (n : Nat) (d : Directive) (s : State) : State :=
  match dirKind? d.kind with
  | none => answerRefused c d .unknownKind [] s
  | some k => if d.payload.length < argBytes k then answerRefused c d .badArgument [] s else carryOutKind k c n d s

/-- The head leaves the queue and counts among the two of this output frame start (R158, R159). -/
def leaveQueue (rest : List Directive) (ch : Channel) : Channel :=
  { ch with pku := { ch.pku with dirQueue := rest, taken := ch.pku.taken + 1 } }

/-- The channel takes no more at this output frame start (R159). -/
def takeNoMore (ch : Channel) : Channel := { ch with pku := { ch.pku with taken := 2 } }

/-- The taking of one directive at output frame start `n` (R159): none when two have been taken; the head
when a place is free, or when it is RESTART DEVICE; otherwise it stays and the channel takes no more. -/
def takeNext (c : Chan) (n : Nat) (s : State) : State :=
  match (s.ch c).pku.dirQueue with
  | [] => s
  | d :: rest =>
    if 2 ≤ (s.ch c).pku.taken then s
    else if dirKind? d.kind = some .restartDevice ∨ 0 < s.freePlaces c then
      carryOut c n d (s.modCh c (leaveQueue rest))
    else s.modCh c takeNoMore

/-- The taking of a directive of one kind (`none`: of an unknown kind) from the head of the queue, at the
output frame start now arriving. With another directive at the head, or none, nothing is taken (log entry 3). -/
def takeKind (c : Chan) (k : Option DirKind) (s : State) : State :=
  match (s.ch c).pku.dirQueue with
  | [] => s
  | d :: _ => if dirKind? d.kind = k then takeNext c (s.startNo + 1) s else s

/-! ### The rows of the directives -/

/-- RESTART_DEVICE (R165): RESTART DEVICE is taken from channel `c`. -/
def execRestartDevice (c : Chan) (s : State) : Host.Outcome State Fault Refusal :=
  .next (takeKind c (some .restartDevice) s)

/-- PROBE (R163) is taken from channel `c`. -/
def execProbe (c : Chan) (s : State) : Host.Outcome State Fault Refusal := .next (takeKind c (some .probe) s)

/-- SET_FORMAT (R10): SET FORMAT is taken from channel `c`. -/
def execSetFormat (c : Chan) (s : State) : Host.Outcome State Fault Refusal :=
  .next (takeKind c (some .setFormat) s)

/-- SET_PARAMETERS (R137): SET PARAMETERS is taken from channel `c`. -/
def execSetParameters (c : Chan) (s : State) : Host.Outcome State Fault Refusal :=
  .next (takeKind c (some .setParameters) s)

/-- START (R125) is taken from channel `c`. -/
def execStart (c : Chan) (s : State) : Host.Outcome State Fault Refusal := .next (takeKind c (some .start) s)

/-- HALT (R131) is taken from channel `c`. -/
def execHalt (c : Chan) (s : State) : Host.Outcome State Fault Refusal := .next (takeKind c (some .halt) s)

/-- RESET_CHANNEL (R139): RESET CHANNEL is taken from channel `c`. -/
def execResetChannel (c : Chan) (s : State) : Host.Outcome State Fault Refusal :=
  .next (takeKind c (some .resetChannel) s)

/-- READ_STATS (R163, R173): READ STATS is taken from channel `c`. -/
def execReadStats (c : Chan) (s : State) : Host.Outcome State Fault Refusal :=
  .next (takeKind c (some .readStats) s)

/-- LOAD_BEGIN (R146): LOAD BEGIN is taken from channel `c`. -/
def execLoadBegin (c : Chan) (s : State) : Host.Outcome State Fault Refusal :=
  .next (takeKind c (some .loadBegin) s)

/-- LOAD_SEGMENT (R147): LOAD SEGMENT is taken from channel `c`. -/
def execLoadSegment (c : Chan) (s : State) : Host.Outcome State Fault Refusal :=
  .next (takeKind c (some .loadSegment) s)

/-- LOAD_COMMIT (R148): LOAD COMMIT is taken from channel `c`. -/
def execLoadCommit (c : Chan) (s : State) : Host.Outcome State Fault Refusal :=
  .next (takeKind c (some .loadCommit) s)

/-- LOAD_ABORT (R151): LOAD ABORT is taken from channel `c`. -/
def execLoadAbort (c : Chan) (s : State) : Host.Outcome State Fault Refusal :=
  .next (takeKind c (some .loadAbort) s)

/-- READ_TABLE (R153): READ TABLE is taken from channel `c`. -/
def execReadTable (c : Chan) (s : State) : Host.Outcome State Fault Refusal :=
  .next (takeKind c (some .readTable) s)

/-- DEVICE_STATUS (R164, R176): DEVICE STATUS is taken from channel `c`. -/
def execDeviceStatus (c : Chan) (s : State) : Host.Outcome State Fault Refusal :=
  .next (takeKind c (some .deviceStatus) s)

/-- CLEAR_ERRORS (R59): CLEAR ERRORS is taken from channel `c`. -/
def execClearErrors (c : Chan) (s : State) : Host.Outcome State Fault Refusal :=
  .next (takeKind c (some .clearErrors) s)

/-- SET_DEVICE_OPTIONS (R58): SET DEVICE OPTIONS is taken from channel `c`. -/
def execSetDeviceOptions (c : Chan) (s : State) : Host.Outcome State Fault Refusal :=
  .next (takeKind c (some .setDeviceOptions) s)

/-- ARM_PROBE (R174): ARM PROBE is taken from channel `c`. -/
def execArmProbe (c : Chan) (s : State) : Host.Outcome State Fault Refusal :=
  .next (takeKind c (some .armProbe) s)

/-- READ_PROBE (R164): READ PROBE is taken from channel `c`. -/
def execReadProbe (c : Chan) (s : State) : Host.Outcome State Fault Refusal :=
  .next (takeKind c (some .readProbe) s)

/-- UNKNOWN_KIND (R160): a directive whose kind names none is taken from channel `c`. -/
def execUnknownKind (c : Chan) (s : State) : Host.Outcome State Fault Refusal := .next (takeKind c none s)

end Sys2Proof.Machine
end

