-- ==== Sys2Proof/Machine/Start.lean ====
section
/-! DEFINITION. Chapter 7, the Reference Timing Unit (R114 to R119), and the output frame start it issues, with
the work of all its consumers (R120). -/

namespace Sys2Proof.Machine

open Sys2Proof

/-! ### The consumers' work (R120) -/

/-- One piece of the work of output frame start `n`; `news` is what the RTU itself raises and hands on there. -/
def doWork (news : State → State) (n : Nat) (s : State) (w : StartWork) : State :=
  match w with
  | .announce  => news s
  | .loader    => loaderWork n s
  | .control c => controlWork c n s
  | .loss c    => lossWork c s
  | .report c  => reportWork c s
  | .packet c  => takeNext c n s

/-- All the work of an output frame start, in the order it is done where the sender gives none (log entry 2). -/
def allWork : List StartWork :=
  [.announce, .loader] ++ allChans.map .control ++ allChans.map .loss ++ allChans.map .report ++
    allChans.flatMap (fun c => [.packet c, .packet c])

/-- All of `left`, the pieces that `order` names first and in its order (R120, R159; log entry 2). -/
def claimWork : List StartWork → List StartWork → List StartWork
  | [], left => left
  | w :: ws, left => if left.contains w then w :: claimWork ws (left.erase w) else claimWork ws left

/-- The output frame start is over: what rows did ahead of it is forgotten. -/
def closeStart (s : State) : State :=
  { eachChan (fun c t => t.modCh c (fun ch =>
      { ch with pku := { ch.pku with taken := 0 }, lossDone := false, haltDone := false })) s with
    loaderDone := false }

/-- An output frame start is issued and reaches every consumer (R120). -/
def issueStart (news : State → State) (order : List StartWork) (s : State) : State :=
  closeStart ((claimWork order allWork).foldl (doWork news (s.startNo + 1))
    { s with startNo := s.startNo + 1, startSeen := true })

/-! ### The Reference Timing Unit (R114 to R119, R136) -/

/-- The LOCKED state of a family (R118). -/
def lockedState : Family → RtuState
  | .f50   => .locked50
  | .f5994 => .locked5994

/-- The RTU after a pulse of family `f` at time `t` (R115, R118, R119): the loss timeout of two nominal periods
runs from it. -/
def pulseRtu (f : Family) (t : Nat) : Rtu := ⟨lockedState f, f, some t, some t, t + 2 * nominalPeriod f⟩

/-- The RTU after an expiry at time `t` (R116, R117): in FREE_RUN on its family, the next period running. -/
def freeRunRtu (f : Family) (t : Nat) : Rtu := ⟨.freeRun, f, none, some t, t + nominalPeriod f⟩

/-- A family change reaches one channel (R136): mismatched and not STOPPED, it raises RATE_MISMATCH. -/
def familyChange (f : Family) (c : Chan) (s : State) : State :=
  if (s.ch c).ctl.state ≠ .stopped ∧ familyOf (s.ch c).ctl.format.standard ≠ f then
    raise c .rateMismatch (s.ch c).fieldCount s
  else s

/-- Whether a pulse of family `f` is taken in the LOCKED state of that family (R115). -/
def plainPulse (x : Rtu) (f : Family) : Bool := decide (x.state = lockedState f)

/-- What a pulse raises and hands on (R115, R118, R119). A channel that takes both has REF_LOCKED before
RATE_MISMATCH; R169 allows either order (DESIGN CHOICE, log entry 27). -/
def pulseNews (x : Rtu) (f : Family) (s : State) : State :=
  if plainPulse x f then s
  else if x.family = f then raiseAll .refLocked s
  else eachChan (familyChange f) (raiseAll .refLocked s)

/-- REFERENCE_PULSE (R115, R118, R119): a pulse of family `f`, `dt` after the previous timed event. The RTU's own items
change before every piece that `order` names, so a START or a DEVICE STATUS taken here finds the new family, also ahead of
`announce`; with the old family they are taken by their own rows ahead (R125; DESIGN CHOICE, log entry 32). -/
def execReferencePulse (dt : Nat) (f : Family) (order : List StartWork) (s : State) :
    Host.Outcome State Fault Refusal :=
  .next (issueStart (pulseNews s.rtu f) order { s with now := s.now + dt, rtu := pulseRtu f (s.now + dt) })

/-- The time at which the running timer expires; when the time has passed it already, the present time. -/
def expiryTime (s : State) : Nat := max s.now s.rtu.deadline

/-- The state in which an expiry's output frame start is issued: the RTU's own items change first (DESIGN CHOICE, log
entry 32). -/
def expire (s : State) : State :=
  { s with now := expiryTime s, rtu := freeRunRtu s.rtu.family (expiryTime s) }

/-- REF_LOSS_TIMEOUT (R116): in LOCKED, the loss timeout expires. In FREE_RUN none is running. -/
def execRefLossTimeout (order : List StartWork) (s : State) : Host.Outcome State Fault Refusal :=
  if s.rtu.state = .freeRun then .next s else .next (issueStart (raiseAll .refLost) order (expire s))

/-- FREE_RUN_EXPIRY (R117): in FREE_RUN, the free-run period expires. In LOCKED none is running. -/
def execFreeRunExpiry (order : List StartWork) (s : State) : Host.Outcome State Fault Refusal :=
  if s.rtu.state = .freeRun then .next (issueStart id order (expire s)) else .next s

end Sys2Proof.Machine
end

