-- ==== Sys2Proof/Machine/Dispatch.lean ====
section
/-! DEFINITION. The dispatch: one arm per command, each one call of its meaning. -/

namespace Sys2Proof.Machine

open Sys2Proof

/-- A command's effect on everything but the queue of commands. -/
def exec (i : Instr) (s : State) : Host.Outcome State Fault Refusal :=
  match i with
  | .powerOnReset straps found errs => Sys2Proof.Machine.execPowerOnReset straps found errs s
  | .pinReset straps => Sys2Proof.Machine.execPinReset straps s
  | .restartDevice c => Sys2Proof.Machine.execRestartDevice c s
  | .probe c => Sys2Proof.Machine.execProbe c s
  | .setFormat c => Sys2Proof.Machine.execSetFormat c s
  | .setParameters c => Sys2Proof.Machine.execSetParameters c s
  | .start c => Sys2Proof.Machine.execStart c s
  | .halt c => Sys2Proof.Machine.execHalt c s
  | .resetChannel c => Sys2Proof.Machine.execResetChannel c s
  | .readStats c => Sys2Proof.Machine.execReadStats c s
  | .loadBegin c => Sys2Proof.Machine.execLoadBegin c s
  | .loadSegment c => Sys2Proof.Machine.execLoadSegment c s
  | .loadCommit c => Sys2Proof.Machine.execLoadCommit c s
  | .loadAbort c => Sys2Proof.Machine.execLoadAbort c s
  | .readTable c => Sys2Proof.Machine.execReadTable c s
  | .deviceStatus c => Sys2Proof.Machine.execDeviceStatus c s
  | .clearErrors c => Sys2Proof.Machine.execClearErrors c s
  | .setDeviceOptions c => Sys2Proof.Machine.execSetDeviceOptions c s
  | .armProbe c => Sys2Proof.Machine.execArmProbe c s
  | .readProbe c => Sys2Proof.Machine.execReadProbe c s
  | .unknownKind c => Sys2Proof.Machine.execUnknownKind c s
  | .timingWord c dt w line => Sys2Proof.Machine.execTimingWord c dt w line s
  | .controlPacket c => Sys2Proof.Machine.execControlPacket c s
  | .writeBurstComplete => Sys2Proof.Machine.execWriteBurstComplete s
  | .readBurstComplete line => Sys2Proof.Machine.execReadBurstComplete line s
  | .referencePulse dt family order => Sys2Proof.Machine.execReferencePulse dt family order s
  | .refLossTimeout order => Sys2Proof.Machine.execRefLossTimeout order s
  | .freeRunExpiry order => Sys2Proof.Machine.execFreeRunExpiry order s
  | .inputLoss c => Sys2Proof.Machine.execInputLoss c s
  | .loadAbandoned => Sys2Proof.Machine.execLoadAbandoned s
  | .tableSwap => Sys2Proof.Machine.execTableSwap s
  | .haltComplete c => Sys2Proof.Machine.execHaltComplete c s
  | .outputLinePeriod c => Sys2Proof.Machine.execOutputLinePeriod c s

end Sys2Proof.Machine
end

