-- ==== Sys2Proof/Safety.lean ====
section
/-! DEFINITION. What the statements speak of: the values a power-on or pin reset leaves, the taking of a
directive, lines, rows and the arithmetic of the Scaler, the read plan, the cadence patterns, the closing of a
field, the frame an engine begins, the faults of a table image, and the invariants that every step keeps. -/

namespace Sys2Proof

open Sys2Proof.Machine

/-! ### Values after a reset -/

/-- The receiver context of R29. -/
def ReceiverCleared (r : Receiver) : Prop :=
  r.state = .seeking ∧ r.accepted = false ∧ r.vote = [] ∧ r.prevParity = none ∧ r.assembly = [] ∧
  r.buffer = [] ∧
  r.lossCount = 0 ∧ r.latestOffset = none ∧ r.drift = 0

/-- The cadence context and the measurement store of R82. -/
def CadenceCleared (k : Cadence) : Prop :=
  k.track = .search none ∧ k.history = [] ∧ k.lastDecided = none ∧ k.images = []

/-- The fifteen statistics of R173 at 0. -/
def StatsCleared (x : Stats) : Prop := ∀ n ∈ statsList x, n = 0

/-- What every reset of a channel leaves (R29, R46, R82, R103, R140, R177): STOPPED with an empty ring. -/
def ChannelStopped (ch : Channel) : Prop :=
  ReceiverCleared ch.recv ∧ ch.fieldCount = 0 ∧ ch.ring = [] ∧ CadenceCleared ch.cad ∧ ch.engine = none ∧
  ch.ctl.state = .stopped ∧ ch.ctl.pendingField = none ∧ ch.ctl.pendingFrame = none ∧
  ch.ctl.lastOutput = none ∧ ch.ctl.halt = none ∧ StatsCleared ch.stats

/-- The report queue, window list and held status after a device reset (R176, R177), and the empty directive
queue (R158). -/
def PortsAfterRestart (ch : Channel) : Prop :=
  ch.rep.queue = [.event (BitVec.ofNat 16 (2 ^ 15)) 0 1] ∧ ch.rep.window = [] ∧ ch.rep.held = ⟨0, 0, 0⟩ ∧
  ch.pku.dirQueue = []

/-- The defaults of R9 and R137. -/
def DefaultsInForce (ch : Channel) : Prop :=
  ch.ctl.format = ⟨.s625, .r1080, .pillar, 0, 0, ⟨64, 512, 512⟩⟩ ∧
  ch.ctl.field = ⟨12, 24, 200, 300, 5, 3, .filmAllowed⟩ ∧ ch.ctl.frame = ⟨0, 2000, .hold⟩ ∧
  ch.rep.mask = BitVec.ofNat 16 (2 ^ 9)

/-- The table contents of R142, byte by byte (R143, R144). -/
def TablesBuiltIn (t : Tables) : Prop :=
  t.patterns[0] = [2, 29, 14, 0, 0, 0, 0, 0, 0, 0, 0] ∧ t.patterns[1] = [5, 21, 6, 10, 21, 6, 0, 0, 0, 0, 0] ∧
  (∀ i : Fin 8, 2 ≤ i.val → t.patterns[i.val] = List.replicate 11 0) ∧
  (∀ i : Fin 4, (t.coefs[i.val]).length = 512 ∧ ∀ ph < 64,
    coefOf t.coefs[i.val] ph 0 = 0 ∧ coefOf t.coefs[i.val] ph 1 = 512 - 8 * (ph : Int) ∧
    coefOf t.coefs[i.val] ph 2 = 8 * (ph : Int) ∧ coefOf t.coefs[i.val] ph 3 = 0) ∧
  (∀ i : Fin 4, (t.curves[i.val]).length = 32 ∧ ∀ k < 32, curveWeight t.curves[i.val] k = min 64 (16 * k))

/-- The values that power-on and pin reset leave alike (R47, R29, R59, R82, R122, R140, R142, R154, R176, R177
and 04_field_store_memory section 4.6). -/
def ResetValues (s : State) : Prop :=
  (∀ c, ChannelStopped (s.ch c) ∧ PortsAfterRestart (s.ch c) ∧ DefaultsInForce (s.ch c)) ∧
  s.arbiter = ⟨none, .c3, .c3⟩ ∧ s.capture = ⟨.clear, .c0, 0, 0, 0, 0, false⟩ ∧ s.inhibitSingle = false ∧
  s.inhibitBefore = [] ∧
  TablesBuiltIn s.tables ∧ s.loader = .idle ∧ s.shadow = [] ∧
  s.rtu.state = .freeRun ∧ s.rtu.family = .f50 ∧ s.rtu.latestPulse = none ∧
  s.rtu.deadline = s.now + 65536 * 5994 ∧ s.startSeen = false ∧ s.probe = .idle

/-- R89, R122: what a device reset leaves of a channel's output frame: no Scaler frame context, and of the frame in
progress its raster and window, its fill, or black of a BLACK frame, the line period that begins next and its family. -/
def OutputFrameEnded (old new : Channel) : Prop :=
  new.scaler = none ∧ (old.scaler = none → new.ended = old.ended) ∧
  ∀ x, old.scaler = some x → new.ended = some
    ⟨x.raster, x.aspect, match x.kind with | .picture => x.fill | .black => ⟨64, 512, 512⟩, x.period, x.family⟩

/-! ### Taking a directive -/

/-- The row that takes a directive of one kind from channel `c`; `none` stands for an unknown kind. -/
def directiveRow (c : Chan) : Option DirKind → Instr
  | some .probe            => .probe c
  | some .setFormat        => .setFormat c
  | some .setParameters    => .setParameters c
  | some .start            => .start c
  | some .halt             => .halt c
  | some .resetChannel     => .resetChannel c
  | some .readStats        => .readStats c
  | some .loadBegin        => .loadBegin c
  | some .loadSegment      => .loadSegment c
  | some .loadCommit       => .loadCommit c
  | some .loadAbort        => .loadAbort c
  | some .readTable        => .readTable c
  | some .deviceStatus     => .deviceStatus c
  | some .clearErrors      => .clearErrors c
  | some .setDeviceOptions => .setDeviceOptions c
  | some .armProbe         => .armProbe c
  | some .readProbe        => .readProbe c
  | some .restartDevice    => .restartDevice c
  | none                   => .unknownKind c

/-- Directive `d`, of kind byte `kind` and with at least `n` payload bytes, heads channel `c`'s queue, `rest`
behind it, fewer than two have been taken, and a place of the report queue is free (R159, R160). -/
def Takeable (c : Chan) (kind n : Nat) (d : Directive) (rest : List Directive) (s : State) : Prop :=
  (s.ch c).pku.dirQueue = d :: rest ∧ d.kind.toNat = kind ∧ n ≤ d.payload.length ∧
  (s.ch c).pku.taken < 2 ∧ 0 < s.freePlaces c

/-- The channel with the head of its directive queue taken. -/
def withTaken (rest : List Directive) (ch : Channel) : Channel :=
  { ch with pku := { ch.pku with dirQueue := rest, taken := ch.pku.taken + 1 } }

/-- The channel with a report at the end of its report queue. -/
def withReport (r : Report) (ch : Channel) : Channel :=
  { ch with rep := { ch.rep with queue := ch.rep.queue ++ [r] } }

/-- The state in which channel `c` has taken the head of its queue and answered it, and nothing else differs. -/
def answeredState (c : Chan) (rest : List Directive) (d : Directive) (code : AnswerCode) (reason : Option Reason)
    (data : List Byte) (s : State) : State :=
  s.setCh c (withReport (.answer d.tag d.kind code reason data) (withTaken rest (s.ch c)))

/-! ### Lines and rows -/

/-- R11, R18: `words` is what the assembly line holds of `line` at its end: 1440 words, those that came clamped to
the legal range (R3), the rest black. A period for which no word is listed brought black (log entry 4). -/
def Assembled (std : Standard) (line : LineIn) (words : List Nat) : Prop :=
  words.length = 1440 ∧ ∀ i, i < 1440 → words[i]? = some (
    if i < 2 * (min line.periods (lineLength std) - (lineLength std - 720)) then
      max 64 (min (if i % 2 = 1 then 940 else 960)
        (match line.words[2 * (lineLength std - 720) + i]? with
          | some w => w.toNat
          | none   => if i % 2 = 1 then 64 else 512))
    else if i % 2 = 1 then 64 else 512)

/-- R11, R23: the words of a window line's active part that came, not clamped. -/
def WindowPart (std : Standard) (line : LineIn) (words : List LineWord) : Prop :=
  words.length = 2 * (min line.periods (lineLength std) - (lineLength std - 720)) ∧
  ∀ i, i < words.length → words[i]? = some ((line.words[2 * (lineLength std - 720) + i]?).getD
    (if i % 2 = 1 then 64 else 512))

/-- R92: `s` is the spatial estimate at `x` between rows `a` and `b`: the average of the candidate with the smallest
difference, vertical before the left diagonal before the right one; positions outside 0 to 719 are read at the end. -/
def SpatialAt (a b : Array Nat) (x s : Nat) : Prop :=
  ∃ l r dv dl dr : Nat, l = x - 1 ∧ r = min 719 (x + 1) ∧
    dv = ((a.getD x 0 : Int) - b.getD x 0).natAbs ∧ dl = ((a.getD l 0 : Int) - b.getD r 0).natAbs ∧
    dr = ((a.getD r 0 : Int) - b.getD l 0).natAbs ∧
    ((dv ≤ dl ∧ dv ≤ dr ∧ s = (a.getD x 0 + b.getD x 0 + 1) / 2) ∨
      (dl < dv ∧ dl ≤ dr ∧ s = (a.getD l 0 + b.getD r 0 + 1) / 2) ∨
      (dr < dv ∧ dr < dl ∧ s = (a.getD r 0 + b.getD l 0 + 1) / 2))

/-- R90, R91: `row` is the average of two rows, sample by sample, in all three components. -/
def AverageOf (a b row : Row) : Prop :=
  (∀ x, x < 720 → row.y.getD x 0 = (a.y.getD x 0 + b.y.getD x 0 + 1) / 2) ∧
  (∀ j, j < 360 → row.cb.getD j 0 = (a.cb.getD j 0 + b.cb.getD j 0 + 1) / 2 ∧
    row.cr.getD j 0 = (a.cr.getD j 0 + b.cr.getD j 0 + 1) / 2)

/-- R14: the dropouts that the closing of a field offers its record, in order: each waiting line as LOST, oldest first, then
each line not received as SHORT, in ascending order. -/
def ClosingOffers (r : Receiver) : List (Nat × Cause) :=
  r.buffer.map (fun l => (l.line, Cause.lost)) ++
    ((List.range (activeLines r.fieldStd)).filter (fun k => decide (r.lineNo < firstActive r.fieldStd + k))).map
      (fun k => (k, Cause.short))

/-- R19, R20, R37: `q` is the record `r` once it has been offered `offers`. Its entries are those of `r`, of which LOST may
have taken the place of TIMING, and entries offered; no line is left out but for want of a place among 16, and the damaged
flag is set exactly when one is. -/
def DropoutsOffered (offers : List (Nat × Cause)) (r q : FieldRecord) : Prop :=
  q = { r with dropouts := q.dropouts, damaged := q.damaged } ∧
  (∀ d ∈ r.dropouts, ∃ d' ∈ q.dropouts, d'.line = d.line) ∧
  (∀ d ∈ q.dropouts, d ∈ r.dropouts ∨ (d.line, d.cause) ∈ offers) ∧
  (r.dropouts.length ≤ 16 → q.dropouts.length ≤ 16) ∧
  (q.damaged = true ↔ r.damaged = true ∨ ∃ o ∈ offers, ∀ d ∈ q.dropouts, d.line ≠ o.1) ∧
  (∀ o ∈ offers, (∀ d ∈ q.dropouts, d.line ≠ o.1) → 16 ≤ q.dropouts.length)

/-- R14, R36: `u` is the state once the field in progress of channel `c` is closed, `a` the state in which its open line has
been judged and an idle arbiter has granted it. A field that was not accepted ends without more. Of an accepted one the
waiting lines are discarded and offered as LOST, the lines not received as SHORT, each counted, and the first that finds no
place counts the field as damaged; an open vote closes, the record becomes COMPLETE, and the tracker takes the field end. No
other record of the ring differs. -/
def FieldClosed (c : Chan) (a u : State) : Prop :=
  ((a.ch c).recv.accepted = false → u = a) ∧
  ((a.ch c).recv.accepted = true →
    ∃ (e : Channel) (h : Nat) (voted : Parity × VoteResult) (ring : List FieldRecord) (stats : Stats)
        (ended : FieldRecord → FieldRecord),
      e = a.ch c ∧ h = activeLines e.recv.fieldStd ∧ voted = decideParity e.recv.vote e.recv.prevParity ∧
      u = cadenceFieldEnd c (a.setCh c { e with
        recv := { e.recv with
          buffer := [], voteClosed := true
          prevParity := if e.recv.voteClosed = true then e.recv.prevParity else some voted.1 }
        ring := ring, stats := stats }) ∧
      stats = { e.stats with
        dropoutLines := stats.dropoutLines, damagedFields := stats.damagedFields
        parityDisputes := if e.recv.voteClosed = false ∧ voted.2 = .twoOfThree then min 65535 (e.stats.parityDisputes + 1)
          else e.stats.parityDisputes } ∧
      (e.stats.dropoutLines ≤ 65535 → stats.dropoutLines = min 65535 (e.stats.dropoutLines +
        e.recv.buffer.countP (fun l => !l.timing) + (h - (e.recv.lineNo + 1 - firstActive e.recv.fieldStd)))) ∧
      ended = (fun x => { x with
        state := .complete
        parity := if e.recv.voteClosed = true then x.parity else some voted.1
        vote := if e.recv.voteClosed = true then x.vote else some voted.2 }) ∧
      (fillingRecord e.ring = none → ring = e.ring ∧ stats.damagedFields = e.stats.damagedFields) ∧
      ∀ r, fillingRecord e.ring = some r → ∃ q,
        q = (ClosingOffers e.recv).foldl (fun x o => (offerToRecord o.1 o.2 x).1) r ∧ DropoutsOffered (ClosingOffers e.recv) r q ∧
        (∀ l ∈ e.recv.buffer, q.damaged = true ∨ ∃ d ∈ q.dropouts, d.line = l.line ∧
          ((∀ x ∈ r.dropouts, x.line = l.line → x.cause = .timing) → d.cause = .lost)) ∧
        (∀ k, k < h → e.recv.lineNo < firstActive e.recv.fieldStd + k → q.damaged = true ∨ ∃ d ∈ q.dropouts, d.line = k ∧
          ((∀ x ∈ r.dropouts, x.line ≠ k) → (∀ l ∈ e.recv.buffer, l.line ≠ k) → d.cause = .short)) ∧
        ((e.ring.map FieldRecord.num).Nodup →
          ring = e.ring.map (fun x =>
            if x.state = .filling then ended (if x.num = r.num then q else x) else x)) ∧
        (findRecord e.ring r.num = some r → stats.damagedFields =
          if r.damaged = false ∧ q.damaged = true then min 65535 (e.stats.damagedFields + 1) else e.stats.damagedFields))

/-! ### Output lines -/

/-- R155, R160, R167 to R169: a report window line sends the first report of the window list, which leaves it, as a packet
with the device's address, or blanking when the list is empty. -/
def SendsReport (device : BitVec 4) (old new : Channel) : Prop :=
  (old.rep.window = [] → new.out = some .blanking ∧ new.rep.window = []) ∧
  ∀ r more, old.rep.window = r :: more → new.rep.window = more ∧ ∃ bytes,
    new.out = some (.report (0x2AA :: 0x155 :: 0x2AA :: bytes.map (fun b => BitVec.ofNat 10 (256 + b.toNat)))) ∧
    (∀ b, r = .relay b → bytes = b) ∧
    (∀ tag kind code reason data, r = .answer tag kind code reason data →
      bytes = withChecksum ([device.zeroExtend 8, 128, tag, BitVec.ofNat 8 (3 + data.length), kind, codeByte code,
        reasonByte reason] ++ data)) ∧
    (∀ kinds field count, r = .event kinds field count →
      bytes = withChecksum ([device.zeroExtend 8, 129, 0, 7] ++ bytes2 kinds.toNat ++ bytes4 field ++ [BitVec.ofNat 8 count]))

/-- R8, R113: `row` is an output line of `total` luma samples: `window` at the `width` columns from `left` on, the fill at
the others, and Cb and Cr at half the columns. -/
def LineAround (total left width : Nat) (fill : Colour) (window row : Row) : Prop :=
  row.y.size = total ∧ row.cb.size = total / 2 ∧ row.cr.size = total / 2 ∧
  (∀ i, i < total → row.y.getD i 0 = if left ≤ i ∧ i < left + width then window.y.getD (i - left) 0 else fill.y) ∧
  ∀ j, j < total / 2 →
    (row.cb.getD j 0 = if left / 2 ≤ j ∧ j < left / 2 + width / 2 then window.cb.getD (j - left / 2) 0 else fill.cb) ∧
    (row.cr.getD j 0 = if left / 2 ≤ j ∧ j < left / 2 + width / 2 then window.cr.getD (j - left / 2) 0 else fill.cr)

/-- R106, R107: the position P of destination position `k` in a pass from `src` to `dst` positions: `k` steps of 65536
times `src` by `dst`, and the offset of half the step less 65536, each rounded down. -/
def PositionAt (src dst k : Nat) : Int :=
  (k : Int) * ((65536 * src / dst : Nat) : Int) + (((65536 * src / dst : Nat) : Int) - 65536) / 2

/-- R107: the phase of a destination position: its fraction of 65536, by 1024, rounded down. -/
def PhaseAt (src dst k : Nat) : Nat := (PositionAt src dst k % 65536 / 1024).toNat

/-- R108: the source position that tap `n`, 0 to 3, reads: `n` less 1 beyond the integer part, within 0 to `src` less 1. -/
def TapAt (src dst k n : Nat) : Nat := (max 0 (min ((src : Int) - 1) (PositionAt src dst k / 65536 - 1 + n))).toNat

/-- R144: coefficient `n` of a phase in a set's image: two bytes, the low one first, as a signed number. -/
def CoefAt (image : List Byte) (phase n : Nat) : Int :=
  let v := (image.getD (8 * phase + 2 * n) 0).toNat + 256 * (image.getD (8 * phase + 2 * n + 1) 0).toNat
  if v < 32768 then (v : Int) else (v : Int) - 65536

/-- R109: the filter result over the four samples tapped, with the coefficients of a phase, within 64 to `hi`. -/
def FilterAt (hi : Nat) (image : List Byte) (phase : Nat) (sample : Nat → Nat) : Nat :=
  (max 64 (min (hi : Int) ((CoefAt image phase 0 * sample 0 + CoefAt image phase 1 * sample 1 +
    CoefAt image phase 2 * sample 2 + CoefAt image phase 3 * sample 3 + 256) / 512))).toNat

/-- R108, R111: the lowest row that output line `y` and the lines after it read, moved into the band after the clamp; with
no line left, the row after the band. -/
def LowestRow (x : ScalerFrame) (y : Nat) : Nat :=
  if y < rasterHeight x.raster then x.bandFirst + TapAt x.bandCount (rasterHeight x.raster) y 0
  else x.bandFirst + x.bandCount

/-! ### The read plan -/

/-- R85: the source is present and of the opposite parity to the centre. -/
def OppositeParity (f : Frame) (role : Role) : Prop := ∃ q, frameSource f role = some q ∧ q.parity ≠ f.centre.parity

/-- R85: both neighbours are present and of the centre's parity. -/
def BothOfCentreParity (f : Frame) : Prop :=
  ∃ p q, f.pred = some p ∧ f.succ = some q ∧ p.parity = f.centre.parity ∧ q.parity = f.centre.parity

/-- R85, R86: line `k` of a source is read at its turn: the source is present, its record does not list the line, and it
is the centre, or a neighbour of the opposite parity, or one of two neighbours of the centre's parity where the centre's
line was skipped as listed or delivered as a dropout. That the record's list is asked in the last case too is log entry
22's reading. -/
def ReadAtItsTurn (ring : List FieldRecord) (f : Frame) (role : Role) (k : Nat) : Prop :=
  ∃ q, frameSource f role = some q ∧ (¬ ∃ r, findRecord ring q.num = some r ∧ ∃ d ∈ r.dropouts, d.line = k) ∧
    (role = .centre ∨ q.parity ≠ f.centre.parity ∨
      (BothOfCentreParity f ∧
        (f.lines.find? (fun x => decide (x.role = .centre) && x.line == k)).map Fetched.row = some none))

/-- R87, R91, R92: row `r` of the frame may use line `k` of a source: an existing row its own line of the centre, the lines
above and below, and those of two neighbours of the centre's parity, a missing row the centre's lines beside it and the
line of a neighbour of the opposite parity. -/
def UsesLine (f : Frame) (r : Nat) (role : Role) (k : Nat) : Prop :=
  if supplies f.centre.parity r = true then
    (role = .centre ∧ (k = r / 2 ∨ k + 1 = r / 2 ∨ k = r / 2 + 1)) ∨ (role ≠ .centre ∧ k = r / 2 ∧ BothOfCentreParity f)
  else
    (role = .centre ∧ ((1 ≤ r ∧ k = (r - 1) / 2) ∨ k = (r + 1) / 2)) ∨ (role ≠ .centre ∧ k = r / 2 ∧ OppositeParity f role)

/-- R84: a frame's source `q` is the record `x` of the ring, where one is present and pinned. -/
def LatchedSource (x : Option FieldRecord) (q : Option SourceRef) : Prop :=
  ((∀ r, x = some r → r.pinned = false) → q = none) ∧
  ∀ r, x = some r → r.pinned = true → ∃ y, q = some y ∧ y.num = r.num ∧ y.slot = r.slot ∧
    ∀ p, r.parity = some p → y.parity = p

/-- R84: the frame that an engine begins at output frame start `n` on the centre that channel `ch` names, with the blend
curves of `tables`: its sources from the ring, its mode the centre's decision, the parameters in force, and nothing built. -/
def FrameLatched (tables : Tables) (n : Nat) (ch : Channel) (f : Frame) : Prop :=
  ∃ (p : Nat) (r : FieldRecord), ch.ring[p]? = some r ∧ r.pinned = true ∧ ch.ctl.lastOutput = some r.num ∧
    (∀ x ∈ ch.ring.take p, x.num ≠ r.num) ∧
    LatchedSource (some r) (some f.centre) ∧ LatchedSource (if p = 0 then none else ch.ring[p - 1]?) f.pred ∧
    LatchedSource ch.ring[p + 1]? f.succ ∧ (∀ m, r.decision = some m → f.mode = m) ∧ (f.first = true ↔ r.uses = 1) ∧
    f.curveNo = ch.ctl.frame.curve ∧ f.curve = tableImage tables (.curve f.curveNo) ∧ f.comb = ch.ctl.field.comb ∧
    f.fallbackLimit = ch.ctl.frame.fallbackLimit ∧ f.height = activeLines ch.ctl.format.standard ∧ f.begun = n ∧
    f.fallback = 0 ∧ f.rowsBuilt = 0 ∧ f.cache = [] ∧ f.delivered = false

/-! ### The cadence patterns -/

/-- R71, R72, R143: the pattern of an entry matches the history at a phase: the entry is used, the phase below its length,
the history at least as long, and each symbol of it, newest first, other than UNKNOWN meets both codes of its phase: 1 NO,
2 YES, 3 ANY, the pair code for P, the repeat code for R. That a code of 0 is met by no such symbol is log entry 21's
reading. -/
def FitsAt (t : Tables) (pat : Fin 8) (ph : Nat) (history : List Symbol) : Prop :=
  let len := (t.patterns[pat.val].getD 0 0).toNat
  len ≠ 0 ∧ ph < len ∧ len ≤ history.length ∧ ∀ j, j < len → ∀ x, history[j]? = some x → x ≠ .unknown →
    ∀ b, b = (t.patterns[pat.val].getD (1 + (ph + len - j) % len) 0).toNat →
      (b % 4 = 3 ∨ (b % 4 = 2 ∧ (x = .p ∨ x = .pr)) ∨ (b % 4 = 1 ∧ (x = .neither ∨ x = .r))) ∧
      (b / 4 % 4 = 3 ∨ (b / 4 % 4 = 2 ∧ (x = .r ∨ x = .pr)) ∨ (b / 4 % 4 = 1 ∧ (x = .neither ∨ x = .p)))

/-- R143: the partner of a phase: NEXT when bit 4 of its byte is set. -/
def PartnerAt (t : Tables) (pat : Fin 8) (ph : Nat) : Partner :=
  if (t.patterns[pat.val].getD (1 + ph) 0).toNat / 16 % 2 = 1 then .next else .prev

/-! ### A frame of the engine that ends -/

/-- R46, R52, R88, R89: the burst in flight when channel `c`'s frame ends or its ring is emptied: a read of that channel
keeps its frame only with `frame`, and its record only with `record`. -/
def ReadOrphaned (c : Chan) (frame record : Bool) (b : Option Burst) : Option Burst :=
  match b with
  | some (.read e slot line role num live present) =>
    if e = c then some (.read e slot line role num (live && frame) (present && record)) else b
  | b => b

/-- R99: `fallback_last_field` when frame `f` ends: the count of a first reconstruction, and else as it was. -/
def PublishedBy (f : Frame) (x : Stats) : Stats :=
  { x with fallbackLastField := if f.first = true then f.fallback else x.fallbackLastField }

/-! ### Validation -/

/-- R149: the offsets at which an entry's image is at fault, from its bytes. -/
def FaultAt (e : TableEntry) (image : List Byte) (o : Nat) : Prop :=
  let b := fun i => (image.getD i 0).toNat
  let v := fun n => if b (2 * n) + 256 * b (2 * n + 1) < 32768 then ((b (2 * n) + 256 * b (2 * n + 1) : Nat) : Int)
    else ((b (2 * n) + 256 * b (2 * n + 1) : Nat) : Int) - 65536
  match e with
  | .pattern _ =>
    (o = 0 ∧ b 0 ≠ 0 ∧ (b 0 < 2 ∨ 10 < b 0)) ∨
    (∃ ph, ph < 10 ∧ o = 1 + ph ∧ ph < b 0 ∧ (b (1 + ph) % 4 = 0 ∨ b (1 + ph) / 4 % 4 = 0 ∨ 32 ≤ b (1 + ph))) ∨
    (∃ ph, ph < 10 ∧ o = 1 + ph ∧ b 0 ≤ ph ∧ b (1 + ph) ≠ 0) ∨
    (o = 1 ∧ 2 ≤ b 0 ∧ b 0 ≤ 10 ∧ ∀ ph, ph < b 0 → b (1 + ph) % 16 = 15)
  | .coef _ =>
    (∃ n, n < 256 ∧ o = 2 * n ∧ (v n < -1024 ∨ 1023 < v n)) ∨
    (∃ ph, ph < 64 ∧ o = 8 * ph ∧ v (4 * ph) + v (4 * ph + 1) + v (4 * ph + 2) + v (4 * ph + 3) ≠ 512)
  | .curve _ => o < 32 ∧ (64 < b o ∨ (1 ≤ o ∧ b o < b (o - 1)))

/-! ### Invariants -/

/-- R166, R168, R158: report queue, window list and directive queue stay within their places. -/
def QueuesFit (s : State) : Prop :=
  ∀ c, (s.ch c).rep.queue.length + s.reserved c ≤ 8 ∧ eventCount (s.ch c).rep.queue ≤ 6 ∧
    (s.ch c).rep.window.length ≤ 4 ∧ (s.ch c).pku.dirQueue.length ≤ 8

/-- R171: a held status with no kinds has count 0, and one with kinds a count from 1 to 255. -/
def HeldStatusSound (s : State) : Prop :=
  ∀ c, ((s.ch c).rep.held.kinds = 0 → (s.ch c).rep.held.count = 0) ∧
    ((s.ch c).rep.held.kinds ≠ 0 → 1 ≤ (s.ch c).rep.held.count ∧ (s.ch c).rep.held.count ≤ 255)

/-- R173, R99: every counter stays within 0 to 65535. -/
def CountersSound (s : State) : Prop :=
  ∀ c, (∀ n ∈ statsList (s.ch c).stats, n ≤ 65535) ∧ ∀ f, (s.ch c).engine = some f → f.fallback ≤ 65535

/-- R141, R142: every active entry satisfies its validation, and the built-in entries hold their contents. -/
def TablesSound (t : Tables) : Prop :=
  (∀ e : TableEntry, entryValid e (tableImage t e) = true) ∧
  (∀ e : TableEntry, readOnlyEntry e = true → tableImage t e = tableImage builtinTables e)

/-- R145, R146, R148: the load state agrees with the shadow and names a writable entry; a committed shadow passed
its validation. -/
def LoadSound (l : LoadState) (shadow : List Byte) : Prop :=
  match l with
  | .idle => shadow = []
  | .loading _ e received idleCount =>
    readOnlyEntry e = false ∧ received = shadow.length ∧ received ≤ entrySize e ∧ idleCount < 100
  | .commitPending _ e _ _ => readOnlyEntry e = false ∧ entryValid e shadow = true

/-- The tables and the loader together. -/
def LoaderSound (s : State) : Prop := TablesSound s.tables ∧ LoadSound s.loader s.shadow

/-- R114 to R117: the state agrees with the family, a latest pulse is held in LOCKED and only there, and the
running timer ends two nominal periods after the pulse, or one after the latest output frame start. -/
def RtuSound (s : State) : Prop :=
  match s.rtu.state with
  | .locked50 => s.rtu.family = .f50 ∧ s.rtu.latestPulse = s.rtu.latestStart ∧
      ∃ t, s.rtu.latestPulse = some t ∧ s.rtu.deadline = t + 2 * nominalPeriod .f50
  | .locked5994 => s.rtu.family = .f5994 ∧ s.rtu.latestPulse = s.rtu.latestStart ∧
      ∃ t, s.rtu.latestPulse = some t ∧ s.rtu.deadline = t + 2 * nominalPeriod .f5994
  | .freeRun => s.rtu.latestPulse = none ∧
      ∀ t, s.rtu.latestStart = some t → s.rtu.deadline = t + nominalPeriod s.rtu.family

/-- R32, R33, R39: one channel's ring holds at most 8 records in different slots, at most 3 of them pinned, only
the newest may be FILLING, and it is FILLING only while the field in progress is accepted. -/
def RingShape (ch : Channel) : Prop :=
  ch.ring.length ≤ 8 ∧ (ch.ring.map FieldRecord.slot).Nodup ∧ ch.ring.countP FieldRecord.pinned ≤ 3 ∧
  (∀ r ∈ ch.ring.dropLast, r.state = .complete) ∧
  ((∃ r ∈ ch.ring, r.state = .filling) → ch.recv.state = .inField ∧ ch.recv.accepted = true)

/-- Every channel's ring keeps its shape. -/
def RingsSound (s : State) : Prop := ∀ c, RingShape (s.ch c)

/-- How many fields ago, counted by the field count, the record's field was accepted (R4). -/
def recordAge (ch : Channel) (r : FieldRecord) : Nat := (ch.fieldCount + 4294967296 - r.num) % 4294967296

/-- R32: no two records of a ring carry the same number, and arrival order is the order of the numbers, each before
the field count. -/
def NumbersInOrder (ch : Channel) : Prop :=
  ch.fieldCount < 4294967296 ∧ (∀ r ∈ ch.ring, r.num < 4294967296 ∧ 1 ≤ recordAge ch r) ∧
  (ch.ring.map FieldRecord.num).Nodup ∧ ch.ring.Pairwise (fun a b => recordAge ch b < recordAge ch a)

/-- R39, R40: with no last output field nothing is pinned; else its record and that record's successor are in the
ring, and pinned are exactly these two and the record before them, where present. A pinned record is COMPLETE. -/
def PinsStandTogether (ch : Channel) : Prop :=
  (∀ r ∈ ch.ring, r.pinned = true → r.state = .complete) ∧
  match ch.ctl.lastOutput with
  | none   => ∀ r ∈ ch.ring, r.pinned = false
  | some n => ∃ p, ringPlace n ch.ring = p ∧ p + 1 < ch.ring.length ∧
      ∀ i r, ch.ring[i]? = some r → (r.pinned = true ↔ i + 1 = p ∨ i = p ∨ i = p + 1)

/-- Every channel's records stand in order and its pins together. -/
def RingOrderSound (s : State) : Prop := ∀ c, NumbersInOrder (s.ch c) ∧ PinsStandTogether (s.ch c)

/-- R37: every dropout list is at most 16 long, in ascending order, with no line listed twice. -/
def DropoutsSound (s : State) : Prop :=
  ∀ c, ∀ r ∈ (s.ch c).ring, r.dropouts.length ≤ 16 ∧ r.dropouts.Pairwise (fun a b => a.line < b.line)

end Sys2Proof
end

