-- ==== Sys2Proof/Certificates/Slice0/Obligations.lean ====
section
/-! DEFINITION. The statements about the model, one `Obligations.<Name>` each. -/

open Sys2Proof Sys2Proof.Machine

/-! ### The step and the resets -/

/-- A step carries out the command at the front of the queue on the state with the queue's rest. -/
def Obligations.StepRunsFrontCommand : Prop :=
  ∀ (s : State) (i : Instr) (rest : List Instr), s.pending = i :: rest → step s = exec i { s with pending := rest }

/-- Every command answers a next state, in every state, and leaves the queue of commands alone. It is the
model's choice that a command whose event cannot come and a directive's row whose directive is not at the head idle
instead of stopping (log entries 1 and 3), and that commands wait in a queue of the model's own (log entry 7). -/
def Obligations.EveryCommandCompletes : Prop :=
  ∀ (i : Instr) (s : State), ∃ t, exec i s = .next t ∧ t.pending = s.pending

/-- POWER_ON_RESET leaves the values of R29, R47, R59, R82, R122, R140, R142, R154, R176 and R177, the straps as the
device address (R157), and the DRAM as it is found. No output frame is in progress, nor the rest of one (an item of the
model's own, log entry 29). Values the spec leaves open at reset are the model's choice (log entries 13, 19 and 26) and not
stated. -/
def Obligations.PowerOnResetValues : Prop :=
  ∀ (straps : BitVec 4) (found : List Host.Cell) (errs : List (Nat × WordError)) (s : State),
    ∃ t, exec (.powerOnReset straps found errs) s = .next t ∧ ResetValues t ∧
      (∀ c, (t.ch c).scaler = none ∧ (t.ch c).ended = none) ∧ t.resetCause = .powerOn ∧
      t.deviceAddress = straps ∧ t.pending = s.pending ∧
      (∀ a b, a < 67108864 → found.filter (fun x => x.1 == a) = [(a, b)] → dramRead t.dram a = b)

/-- PIN_RESET leaves the same values, with its own cause; the DRAM is kept, but for the line place of a write
burst that the reset cuts short (R52). No channel has a Scaler frame context (R122), and of the output frame in progress
the rest is left to be sent, with the fill outside a black window (R89; the item that holds it is log entry 29's). -/
def Obligations.PinResetValues : Prop :=
  ∀ (straps : BitVec 4) (s : State),
    ∃ t, exec (.pinReset straps) s = .next t ∧ ResetValues t ∧
      (∀ c, OutputFrameEnded (s.ch c) (t.ch c)) ∧ t.resetCause = .resetPin ∧
      t.deviceAddress = straps ∧ t.pending = s.pending ∧
      ((∀ c slot k words, s.arbiter.burst ≠ some (.write c slot k words)) →
        t.dram = s.dram ∧ t.dramErrs = s.dramErrs) ∧
      (∀ c slot k words, s.arbiter.burst = some (.write c slot k words) → ∀ a,
        a < (chanNat c * 8 + slot.val) * 1048576 + 1920 * k ∨
          (chanNat c * 8 + slot.val) * 1048576 + 1920 * k + 1920 ≤ a →
        dramRead t.dram a = dramRead s.dram a ∧ storedError t.dramErrs a = storedError s.dramErrs a)

/-- The reset state holds the values of a power-on reset, with no output frame in progress (log entry 29). -/
def Obligations.ResetStateValues : Prop :=
  ResetValues State.reset ∧ (∀ c, (State.reset.ch c).scaler = none ∧ (State.reset.ch c).ended = none) ∧ State.reset.resetCause = .powerOn ∧ State.reset.pending = []

/-- RESTART_DEVICE (R165, R176): RESTART DEVICE at the head is taken whatever the report queue holds. Every channel
stops with format, mask and parameters kept, pending values in force; its queues are emptied and hold one RESTART
event; it has no Scaler frame context, and of its output frame the rest is left to be sent, with the fill outside a black
window (R89, R122; log entry 29); loader and probe are idle; the rest of the device is kept, but for the line place of a
write burst that the restart cuts short (R47, R52). -/
def Obligations.DeviceRestartResult : Prop :=
  ∀ (c : Chan) (s : State) (d : Directive) (rest : List Directive),
    (s.ch c).pku.dirQueue = d :: rest → d.kind.toNat = 47 → (s.ch c).pku.taken < 2 →
    ∃ t, exec (.restartDevice c) s = .next t ∧
      (∀ e, ChannelStopped (t.ch e) ∧ PortsAfterRestart (t.ch e) ∧
        (t.ch e).ctl.format = (s.ch e).ctl.format ∧ (t.ch e).rep.mask = (s.ch e).rep.mask ∧
        (t.ch e).ctl.field = (s.ch e).ctl.pendingField.getD (s.ch e).ctl.field ∧
        (t.ch e).ctl.frame = ((s.ch e).ctl.pendingFrame.map Prod.fst).getD (s.ch e).ctl.frame ∧
        OutputFrameEnded (s.ch e) (t.ch e)) ∧
      t.arbiter = ⟨none, .c3, .c3⟩ ∧ t.loader = .idle ∧ t.shadow = [] ∧ t.probe = .idle ∧
      t.resetCause = .restartDirective ∧ t.tables = s.tables ∧ t.capture = s.capture ∧
      t.inhibitSingle = s.inhibitSingle ∧ t.inhibitBefore = [] ∧ t.deviceAddress = s.deviceAddress ∧ t.rtu = s.rtu ∧
      ((∀ c slot k words, s.arbiter.burst ≠ some (.write c slot k words)) →
        t.dram = s.dram ∧ t.dramErrs = s.dramErrs) ∧
      (∀ e slot k words, s.arbiter.burst = some (.write e slot k words) → ∀ a,
        a < (chanNat e * 8 + slot.val) * 1048576 + 1920 * k ∨
          (chanNat e * 8 + slot.val) * 1048576 + 1920 * k + 1920 ≤ a →
        dramRead t.dram a = dramRead s.dram a ∧ storedError t.dramErrs a = storedError s.dramErrs a)

/-! ### Channel directives -/

/-- PROBE (R163): the twenty data bytes describe the channel, the held status is emptied, and nothing else
differs. -/
def Obligations.ProbeResult : Prop :=
  ∀ (c : Chan) (s : State) (d : Directive) (rest : List Directive), Takeable c 1 0 d rest s →
    ∃ state track pat ph present : Nat,
      state = (match (s.ch c).ctl.state with
        | .stopped => 0 | .starting => 1 | .running => 2 | .halting => 3 | .lost => 4) ∧
      track = (match (s.ch c).cad.track with | .search _ => 0 | .locked _ _ => 1 | .hold _ _ _ => 2) ∧
      (pat, ph) = (match (s.ch c).cad.track with
        | .search none => (255, 255) | .search (some x) => (x.pat.val, x.phase)
        | .locked p f => (p.val, f) | .hold p f _ => (p.val, f)) ∧
      present = (if (s.ch c).ctl.lastOutput = none then 0 else 1) + (if (s.ch c).recv.latestOffset = none then 0 else 2) ∧
      exec (.probe c) s = .next (s.setCh c
        (withReport
          (.answer d.tag d.kind .done none
            ([byteOf state, byteOf track, byteOf pat, byteOf ph, byteOf present]
              ++ bytes4 ((s.ch c).ctl.lastOutput.getD 0) ++ bytes2 ((s.ch c).recv.latestOffset.getD 0)
              ++ bytes2 ((s.ch c).recv.drift % 65536).toNat ++ bytes2 (s.ch c).rep.held.kinds.toNat
              ++ bytes4 (s.ch c).rep.held.first ++ [byteOf (s.ch c).rep.held.count]))
          { withTaken rest (s.ch c) with rep := { (s.ch c).rep with held := ⟨0, 0, 0⟩ } }))

/-- SET FORMAT (R10): BUSY unless STOPPED; refused when its codes name no format; else stored whole, with the
format that the coming frame still reads kept beside it. -/
def Obligations.SetFormatResult : Prop :=
  ∀ (c : Chan) (s : State) (d : Directive) (rest : List Directive), Takeable c 2 11 d rest s →
    ((s.ch c).ctl.state ≠ .stopped →
      exec (.setFormat c) s = .next (answeredState c rest d .busy none [] s)) ∧
    ((s.ch c).ctl.state = .stopped → formatOf? d.payload = none →
      exec (.setFormat c) s = .next (answeredState c rest d .refused (some .badArgument) [] s)) ∧
    (∀ f, (s.ch c).ctl.state = .stopped → formatOf? d.payload = some f →
      ∃ prior, (∀ n, formatAt n { (s.ch c).ctl with format := f, priorFormat := prior }
          = if n = s.startNo + 1 then formatAt (s.startNo + 1) (s.ch c).ctl else f) ∧
        exec (.setFormat c) s = .next (s.setCh c (withReport (.answer d.tag d.kind .done none [])
          { withTaken rest (s.ch c) with ctl := { (s.ch c).ctl with format := f, priorFormat := prior } })))

/-- SET PARAMETERS (R137, R171): a payload with a policy or action outside its list is refused; else the two
groups become pending, marked with this output frame start, and the mask is replaced at once. A mask change that
unmasks a held kind delivers the held status ahead of the answer when there is room besides the answer's place. -/
def Obligations.SetParametersResult : Prop :=
  ∀ (c : Chan) (s : State) (d : Directive) (rest : List Directive), Takeable c 3 15 d rest s →
    (parametersOf? d.payload = none →
      exec (.setParameters c) s = .next (answeredState c rest d .refused (some .badArgument) [] s)) ∧
    ∀ f fr mask, parametersOf? d.payload = some (f, fr, mask) →
      ∃ rep : ReportPort,
        exec (.setParameters c) s = .next (s.setCh c (withReport (.answer d.tag d.kind .done none [])
          { withTaken rest (s.ch c) with
            ctl := { (s.ch c).ctl with pendingField := some f, pendingFrame := some (fr, s.startNo + 1) }
            rep := rep })) ∧
        rep = (let old := (s.ch c).rep
          if old.held.kinds &&& old.mask &&& ~~~mask ≠ 0 ∧ 1 < s.freePlaces c ∧ eventCount old.queue < 6 then
            { queue := old.queue ++ [.event (old.held.kinds &&& ~~~mask) old.held.first old.held.count]
              window := old.window
              held := if old.held.kinds &&& mask = 0 then ⟨0, 0, 0⟩
                else ⟨old.held.kinds &&& mask, old.held.first, 1⟩
              mask := mask }
          else { old with mask := mask })

/-- The payloads of SET FORMAT and SET PARAMETERS (R10, R137, R162): codes outside their lists are refused, every
number is read low byte first, and a number outside its range is clamped. -/
def Obligations.PayloadsAreClamped : Prop :=
  ∀ (p : List Byte) (b : Nat → Nat), b = (fun i => (p.getD i 0).toNat) →
    (formatOf? p = none ↔ 2 < b 0 ∨ 1 < b 1 ∨ 2 < b 2) ∧
    (∀ f, formatOf? p = some f →
      (b 0 = 0 ↔ f.standard = .s625) ∧ (b 0 = 1 ↔ f.standard = .s525) ∧ (b 0 = 2 ↔ f.standard = .s405) ∧
      (b 1 = 0 ↔ f.raster = .r1080) ∧ (b 1 = 1 ↔ f.raster = .r720) ∧
      (b 2 = 0 ↔ f.aspect = .pillar) ∧ (b 2 = 1 ↔ f.aspect = .crop149) ∧ (b 2 = 2 ↔ f.aspect = .stretch) ∧
      f.vset.val = min 3 (b 3) ∧ f.hset.val = min 3 (b 4) ∧
      f.fill.y = max 64 (min 940 (b 5 + 256 * b 6)) ∧ f.fill.cb = max 64 (min 960 (b 7 + 256 * b 8)) ∧
      f.fill.cr = max 64 (min 960 (b 9 + 256 * b 10))) ∧
    (parametersOf? p = none ↔ 1 < b 8 ∨ 1 < b 12) ∧
    (∀ f fr mask, parametersOf? p = some (f, fr, mask) →
      f.noise = b 0 ∧ f.comb = b 1 ∧ f.repeatLimit = b 2 + 256 * b 3 ∧ f.pairLimit = b 4 + 256 * b 5 ∧
      f.confirm = max 1 (min 15 (b 6)) ∧ f.hold = min 15 (b 7) ∧
      (b 8 = 0 ↔ f.policy = .filmAllowed) ∧ (b 8 = 1 ↔ f.policy = .videoOnly) ∧
      fr.curve.val = min 3 (b 9) ∧ fr.fallbackLimit = b 10 + 256 * b 11 ∧
      (b 12 = 0 ↔ fr.lossAction = .hold) ∧ (b 12 = 1 ↔ fr.lossAction = .black) ∧
      mask.toNat = b 13 + 256 * b 14)

/-- START (R125): from STOPPED to STARTING when the families match, refused with RATE_MISMATCH when they differ,
BUSY in any other state. -/
def Obligations.StartResult : Prop :=
  ∀ (c : Chan) (s : State) (d : Directive) (rest : List Directive), Takeable c 4 0 d rest s →
    exec (.start c) s = .next (
      if (s.ch c).ctl.state = .stopped then
        if familyOf (s.ch c).ctl.format.standard = s.rtu.family then
          s.setCh c (withReport (.answer d.tag d.kind .done none [])
            { withTaken rest (s.ch c) with ctl := { (s.ch c).ctl with state := .starting } })
        else answeredState c rest d .refused (some .rateMismatch) [] s
      else answeredState c rest d .busy none [] s)

/-- HALT (R131, R161): STARTING, RUNNING and LOST enter HALTING with the answer deferred and its place reserved;
STOPPED and HALTING answer DONE at once. -/
def Obligations.HaltResult : Prop :=
  ∀ (c : Chan) (s : State) (d : Directive) (rest : List Directive), Takeable c 5 0 d rest s →
    exec (.halt c) s = .next (
      if (s.ch c).ctl.state = .stopped ∨ (s.ch c).ctl.state = .halting then answeredState c rest d .done none [] s
      else s.setCh c { withTaken rest (s.ch c) with
        ctl := { (s.ch c).ctl with state := .halting, halt := some ⟨(s.ch c).ctl.state, s.startNo + 1, d.tag⟩ } })

/-- RESET CHANNEL (R139, R152, R161, R174, R177): the channel stops, its deferred answers are aborted in order
ahead of the DONE, an owned load is abandoned with LOAD_ABANDONED, and the other channels stand. A frame in progress is
abandoned (R89): its pending read is gone, a read in flight keeps neither frame nor record (R46, R52), the rest of the
output frame is black with its fill outside, at whichever line period it stands (log entry 28), and the count of a first
reconstruction is published (R99) before the reset clears the statistics. -/
def Obligations.ResetChannelResult : Prop :=
  (∀ (c : Chan) (s : State), ((s.ch c).engine = none → abandonFrame c s = s) ∧
    ∀ f, (s.ch c).engine = some f → abandonFrame c s = { s.setCh c { s.ch c with
        engine := none
        stats := PublishedBy f (s.ch c).stats
        scaler := (s.ch c).scaler.map (fun x => { x with abandoned := true }) } with
      arbiter := { s.arbiter with burst := ReadOrphaned c false true s.arbiter.burst } }) ∧
  ∀ (c : Chan) (s : State) (d : Directive) (rest : List Directive), Takeable c 6 0 d rest s →
    ∀ (owned : Bool), (owned = true ↔ (∃ e n m, s.loader = .loading c e n m) ∨ ∃ e tag n, s.loader = .commitPending c e tag n) →
    ∃ t halts commits, exec (.resetChannel c) s = .next t ∧
      ChannelStopped (t.ch c) ∧ (t.ch c).ctl.format = (s.ch c).ctl.format ∧
      (t.ch c).ctl.field = (s.ch c).ctl.pendingField.getD (s.ch c).ctl.field ∧
      (t.ch c).ctl.frame = ((s.ch c).ctl.pendingFrame.map Prod.fst).getD (s.ch c).ctl.frame ∧
      (t.ch c).pku = { (s.ch c).pku with dirQueue := rest, taken := (s.ch c).pku.taken + 1 } ∧
      (t.ch c).rep.window = (s.ch c).rep.window ∧ (t.ch c).rep.mask = (s.ch c).rep.mask ∧
      (t.ch c).scaler = (if (s.ch c).engine = none then (s.ch c).scaler
        else (s.ch c).scaler.map (fun x => { x with abandoned := true })) ∧ (t.ch c).ended = (s.ch c).ended ∧
      t.arbiter = { s.arbiter with
        burst := ReadOrphaned c (decide ((s.ch c).engine = none)) false s.arbiter.burst } ∧
      halts = (match (s.ch c).ctl.halt with
        | some r => [Report.answer r.tag 5 .aborted none []] | none => []) ∧
      ((∃ e tag n, s.loader = .commitPending c e tag n ∧ commits = [Report.answer tag 18 .aborted none []]) ∨
        ((¬ ∃ e tag n, s.loader = .commitPending c e tag n) ∧ commits = [])) ∧
      (let queue := (s.ch c).rep.queue ++ halts ++ commits ++ [Report.answer d.tag d.kind .done none []]
       if owned = true then
         if (s.ch c).rep.mask.getLsbD 13 = false ∧ queue.length < 8 ∧ eventCount queue < 6 then
           (t.ch c).rep.queue = queue ++ [.event (BitVec.ofNat 16 (2 ^ 13)) 0 1] ∧ (t.ch c).rep.held = ⟨0, 0, 0⟩
         else (t.ch c).rep.queue = queue ∧ (t.ch c).rep.held = ⟨BitVec.ofNat 16 (2 ^ 13), 0, 1⟩
       else (t.ch c).rep.queue = queue ∧ (t.ch c).rep.held = ⟨0, 0, 0⟩) ∧
      t.loader = (if owned = true then .idle else s.loader) ∧ t.shadow = (if owned = true then [] else s.shadow) ∧
      t.probe = (match s.probe with | .armed arm => if arm.chan = c then .idle else .armed arm | p => p) ∧
      (∀ e, e ≠ c → t.ch e = s.ch e) ∧
      t.dram = s.dram ∧ t.tables = s.tables ∧ t.rtu = s.rtu ∧ t.capture = s.capture ∧
      t.resetCause = s.resetCause ∧ t.deviceAddress = s.deviceAddress

/-- READ STATS (R163, R173): the fifteen values in order, each as two bytes low byte first; all become 0 when the
clear flag is set, and nothing else differs. -/
def Obligations.ReadStatsResult : Prop :=
  ∀ (c : Chan) (s : State) (d : Directive) (rest : List Directive), Takeable c 7 1 d rest s →
    exec (.readStats c) s = .next (s.setCh c (withReport
      (.answer d.tag d.kind .done none
        (let x := (s.ch c).stats
         bytes2 x.fieldsReceived ++ bytes2 x.fieldsDropped ++ bytes2 x.fieldsRepeated ++ bytes2 x.dropoutLines
          ++ bytes2 x.damagedFields ++ bytes2 x.parityDisputes ++ bytes2 x.flywheelStarts ++ bytes2 x.cadenceLocks
          ++ bytes2 x.cadenceLosses ++ bytes2 x.eccSingle ++ bytes2 x.eccDouble ++ bytes2 x.directivesDiscarded
          ++ bytes2 x.relaysDiscarded ++ bytes2 x.readUnderruns ++ bytes2 x.fallbackLastField))
      { withTaken rest (s.ch c) with
        stats := if d.payload.getD 0 0 = 0 then (s.ch c).stats else ⟨0, 0, 0, 0, 0, 0, 0, 0, 0, 0, 0, 0, 0, 0, 0⟩ }))


/-! ### Load directives -/

/-- LOAD BEGIN (R146): in IDLE it checks table and entry, then the read-only entries, and opens the load; in any
other load state it is BUSY. -/
def Obligations.LoadBeginResult : Prop :=
  ∀ (c : Chan) (s : State) (d : Directive) (rest : List Directive), Takeable c 16 2 d rest s →
    ∀ table number : Nat, table = (d.payload.getD 0 0).toNat → number = (d.payload.getD 1 0).toNat →
    (s.loader ≠ .idle → exec (.loadBegin c) s = .next (answeredState c rest d .busy none [] s)) ∧
    (s.loader = .idle → (2 < table ∨ (table = 0 ∧ 7 < number) ∨ (table ≠ 0 ∧ 3 < number)) →
      exec (.loadBegin c) s = .next (answeredState c rest d .refused (some .badArgument) [] s)) ∧
    (s.loader = .idle → table ≤ 2 → number ≤ (if table = 0 then 1 else 0) →
      exec (.loadBegin c) s = .next (answeredState c rest d .refused (some .readOnly) [] s)) ∧
    (s.loader = .idle → table ≤ 2 → (if table = 0 then 1 else 0) < number → number ≤ (if table = 0 then 7 else 3) →
      ∃ e, tableCode e = table ∧ entryNumber e = number ∧
        exec (.loadBegin c) s = .next
          { answeredState c rest d .done none [] s with loader := .loading c e 0 0, shadow := [] })

/-- LOAD SEGMENT (R147): from the owner and in sequence its bytes join the shadow; out of sequence it is refused;
else NO_LOAD in IDLE and BUSY. -/
def Obligations.LoadSegmentResult : Prop :=
  ∀ (c : Chan) (s : State) (d : Directive) (rest : List Directive), Takeable c 17 2 d rest s →
    (s.loader = .idle → exec (.loadSegment c) s = .next (answeredState c rest d .refused (some .noLoad) [] s)) ∧
    (∀ o e tag n, s.loader = .commitPending o e tag n →
      exec (.loadSegment c) s = .next (answeredState c rest d .busy none [] s)) ∧
    (∀ o e got idleCount, s.loader = .loading o e got idleCount →
      exec (.loadSegment c) s = .next (
        if o ≠ c then answeredState c rest d .busy none [] s
        else if (d.payload.getD 0 0).toNat + 256 * (d.payload.getD 1 0).toNat = got ∧
            got + (d.payload.length - 2) ≤ (match e with | .pattern _ => 11 | .coef _ => 512 | .curve _ => 32) then
          { answeredState c rest d .done none [] s with
            loader := .loading o e (got + (d.payload.length - 2)) 0
            shadow := s.shadow ++ d.payload.drop 2 }
        else answeredState c rest d .refused (some .sequence) [] s))

/-- LOAD COMMIT (R148): from the owner of a complete load whose shadow has no fault, the loader enters
COMMIT_PENDING and the answer is deferred; a shadow with faults ends the load, and the refusal carries the lowest
offset of a fault, low byte first. -/
def Obligations.LoadCommitResult : Prop :=
  ∀ (c : Chan) (s : State) (d : Directive) (rest : List Directive), Takeable c 18 0 d rest s →
    (s.loader = .idle → exec (.loadCommit c) s = .next (answeredState c rest d .refused (some .noLoad) [] s)) ∧
    (∀ o e tag n, s.loader = .commitPending o e tag n →
      exec (.loadCommit c) s = .next (answeredState c rest d .busy none [] s)) ∧
    (∀ o e got idleCount, s.loader = .loading o e got idleCount →
      (o ≠ c → exec (.loadCommit c) s = .next (answeredState c rest d .busy none [] s)) ∧
      (o = c → got < entrySize e →
        exec (.loadCommit c) s = .next (answeredState c rest d .refused (some .incomplete) [] s)) ∧
      (o = c → entrySize e ≤ got → (∀ i, ¬ FaultAt e s.shadow i) →
        exec (.loadCommit c) s = .next
          { s.setCh c (withTaken rest (s.ch c)) with loader := .commitPending c e d.tag (s.startNo + 1) }) ∧
      (∀ i, o = c → entrySize e ≤ got → FaultAt e s.shadow i → (∀ j, j < i → ¬ FaultAt e s.shadow j) →
        exec (.loadCommit c) s = .next
          { answeredState c rest d .refused (some .validation) [BitVec.ofNat 8 i, BitVec.ofNat 8 (i / 256)] s with
            loader := .idle, shadow := [] }))

/-- Validation (R149) finds the lowest of the offsets at which the image is at fault, and none when there is none. -/
def Obligations.ShadowValidation : Prop :=
  ∀ (e : TableEntry) (image : List Byte),
    (faultOffset e image = none ↔ ∀ o, ¬ FaultAt e image o) ∧
    (∀ o, faultOffset e image = some o ↔ FaultAt e image o ∧ ∀ j, j < o → ¬ FaultAt e image j)

/-- LOAD ABORT (R151): the owner's load ends without an event; IDLE answers DONE; else BUSY. -/
def Obligations.LoadAbortResult : Prop :=
  ∀ (c : Chan) (s : State) (d : Directive) (rest : List Directive), Takeable c 19 0 d rest s →
    (s.loader = .idle → exec (.loadAbort c) s = .next (answeredState c rest d .done none [] s)) ∧
    (∀ o e tag n, s.loader = .commitPending o e tag n →
      exec (.loadAbort c) s = .next (answeredState c rest d .busy none [] s)) ∧
    (∀ o e got idleCount, s.loader = .loading o e got idleCount →
      exec (.loadAbort c) s = .next (
        if o = c then { answeredState c rest d .done none [] s with loader := .idle, shadow := [] }
        else answeredState c rest d .busy none [] s))

/-- READ TABLE (R153): refused when it names no entry, asks for more than 192 bytes or runs past the entry; else
the bytes of the active image from the offset on, in every load state, and nothing else differs. -/
def Obligations.ReadTableResult : Prop :=
  ∀ (c : Chan) (s : State) (d : Directive) (rest : List Directive), Takeable c 20 5 d rest s →
    ∀ (b : Nat → Nat) (offset count : Nat), b = (fun i => (d.payload.getD i 0).toNat) →
    offset = b 2 + 256 * b 3 → count = b 4 →
    ((¬ ∃ e, tableCode e = b 0 ∧ entryNumber e = b 1) →
      exec (.readTable c) s = .next (answeredState c rest d .refused (some .badArgument) [] s)) ∧
    (∀ e, tableCode e = b 0 → entryNumber e = b 1 →
      ((192 < count ∨ (match e with | .pattern _ => 11 | .coef _ => 512 | .curve _ => 32) < offset + count) →
        exec (.readTable c) s = .next (answeredState c rest d .refused (some .badArgument) [] s)) ∧
      (count ≤ 192 → offset + count ≤ (match e with | .pattern _ => 11 | .coef _ => 512 | .curve _ => 32) →
        ∃ data, exec (.readTable c) s = .next (answeredState c rest d .done none data s) ∧
          ((tableImage s.tables e).length = entrySize e →
            data.length = count ∧ ∀ i, i < count → data[i]? = (tableImage s.tables e)[offset + i]?)))

/-! ### Device directives -/

/-- DEVICE STATUS (R164, R176): the twenty-one bytes, and nothing else differs. -/
def Obligations.DeviceStatusResult : Prop :=
  ∀ (c : Chan) (s : State) (d : Directive) (rest : List Directive), Takeable c 32 0 d rest s →
    ∃ load : List Nat, load.length = 8 ∧
      (s.loader = .idle → load = [0, 0, 0, 0, 0, 0, 0, 0]) ∧
      (∀ o e got idleCount, s.loader = .loading o e got idleCount →
        load = [1, chanNat o, tableCode e, entryNumber e, got % 256, got / 256 % 256, idleCount % 256, 0]) ∧
      (∀ o e tag n, s.loader = .commitPending o e tag n →
        load = [2, chanNat o, tableCode e, entryNumber e, 0, 0, 0, tag.toNat]) ∧
      exec (.deviceStatus c) s = .next (answeredState c rest d .done none
        (([match s.resetCause with | .powerOn => 0 | .resetPin => 1 | .restartDirective => 2,
           match s.rtu.state with | .locked50 => 0 | .locked5994 => 1 | .freeRun => 2,
           match s.rtu.family with | .f50 => 0 | .f5994 => 1] ++ load ++
          [match s.capture.state with | .clear => 0 | .single => 1 | .double => 2,
           chanNat s.capture.chan, s.capture.slot.val, s.capture.line % 256, s.capture.line / 256 % 256,
           s.capture.word, s.capture.syndrome.toNat, if s.capture.later then 1 else 0,
           match s.probe with | .idle => 0 | .armed _ => 1 | .captured _ _ => 2,
           s.deviceAddress.toNat]).map (BitVec.ofNat 8)) s)

/-- CLEAR ERRORS (R59) clears the Error Capture record; SET DEVICE OPTIONS (R58, R162) sets the option, and is
refused with a byte other than 0 and 1. While a read burst is in flight, the value the option had is kept for the words
read before (log entry 30). -/
def Obligations.ErrorCaptureDirectives : Prop :=
  ∀ (c : Chan) (s : State) (d : Directive) (rest : List Directive) (before : List Bool),
    ((∃ e slot k role num live present, s.arbiter.burst = some (.read e slot k role num live present)) →
      before = s.inhibitBefore ++ [s.inhibitSingle]) →
    ((∀ e slot k role num live present, s.arbiter.burst ≠ some (.read e slot k role num live present)) → before = []) →
    (Takeable c 33 0 d rest s → exec (.clearErrors c) s = .next
      { answeredState c rest d .done none [] s with capture := ⟨.clear, .c0, 0, 0, 0, 0, false⟩ }) ∧
    (Takeable c 34 1 d rest s → exec (.setDeviceOptions c) s = .next (
      if d.payload.getD 0 0 = 0 then { answeredState c rest d .done none [] s with
        inhibitSingle := false, inhibitBefore := before }
      else if d.payload.getD 0 0 = 1 then { answeredState c rest d .done none [] s with
        inhibitSingle := true, inhibitBefore := before }
      else answeredState c rest d .refused (some .badArgument) [] s))

/-- ARM PROBE (R162, R164, R174): a channel above 3, a frame row not below 2h of its standard, a column above 719
or an unlisted condition is refused; else the probe is ARMED with the record, m clamped to 1023. -/
def Obligations.ArmProbeResult : Prop :=
  ∀ (c : Chan) (s : State) (d : Directive) (rest : List Directive), Takeable c 35 8 d rest s →
    ∀ (b : Nat → Nat), b = (fun i => (d.payload.getD i 0).toNat) →
    ((3 < b 0 ∨ 719 < b 3 + 256 * b 4 ∨ 4 < b 5 ∨
        ∃ e, chanNat e = b 0 ∧ 2 * activeLines (s.ch e).ctl.format.standard ≤ b 1 + 256 * b 2) →
      exec (.armProbe c) s = .next (answeredState c rest d .refused (some .badArgument) [] s)) ∧
    (∀ e, chanNat e = b 0 → b 3 + 256 * b 4 ≤ 719 → b 5 ≤ 4 →
      b 1 + 256 * b 2 < 2 * activeLines (s.ch e).ctl.format.standard →
      ∃ cond, b 5 = (match cond with
          | .any => 0 | .film => 1 | .video => 2 | .fallback => 3 | .motionAtLeast => 4) ∧
        exec (.armProbe c) s = .next { answeredState c rest d .done none [] s with
          probe := .armed ⟨e, b 1 + 256 * b 2, b 3 + 256 * b 4, cond, min 1023 (b 6 + 256 * b 7)⟩ })

/-- READ PROBE (R164): the twenty-five bytes, 0 for a record that is not present, and nothing else differs. -/
def Obligations.ReadProbeResult : Prop :=
  ∀ (c : Chan) (s : State) (d : Directive) (rest : List Directive), Takeable c 36 0 d rest s →
    ∃ state arm capture : List Nat, arm.length = 8 ∧ capture.length = 16 ∧
      (s.probe = .idle → state = [0] ∧ arm = [0, 0, 0, 0, 0, 0, 0, 0]) ∧
      ((∀ x y, s.probe ≠ .captured x y) → capture = List.replicate 16 0) ∧
      (∀ a, (s.probe = .armed a ∧ state = [1]) ∨ (∃ x, s.probe = .captured a x ∧ state = [2]) →
        arm = [chanNat a.chan, a.row % 256, a.row / 256 % 256, a.column % 256, a.column / 256 % 256,
          match a.cond with | .any => 0 | .film => 1 | .video => 2 | .fallback => 3 | .motionAtLeast => 4,
          a.m % 256, a.m / 256 % 256]) ∧
      (∀ a, s.probe = .armed a → state = [1]) ∧
      (∀ a x, s.probe = .captured a x → state = [2] ∧
        capture = [x.field % 256, x.field / 256 % 256, x.field / 65536 % 256, x.field / 16777216 % 256,
          match x.mode with | .video => 0 | .film .prev => 1 | .film .next => 2,
          x.s % 256, x.s / 256 % 256, x.t.getD 0 % 256, x.t.getD 0 / 256 % 256, if x.t.isSome then 1 else 0,
          x.m % 256, x.m / 256 % 256, x.w % 256, x.o % 256, x.o / 256 % 256,
          match x.track with | .search => 0 | .locked => 1 | .hold => 2]) ∧
      exec (.readProbe c) s = .next (answeredState c rest d .done none
        ((state ++ arm ++ capture).map (BitVec.ofNat 8)) s)

/-! ### Every directive -/

/-- R160: a kind byte that names no directive is refused with UNKNOWN_KIND, and a payload shorter than the
directive's arguments (R162) with BAD_ARGUMENT, before the directive's own rule; nothing else differs. That a short SET
FORMAT outside STOPPED and a short LOAD BEGIN outside IDLE are refused so, and not answered BUSY, is the model's reading
(DEDUCED, log entry 18). -/
def Obligations.UnknownAndShortRefused : Prop :=
  ∀ (c : Chan) (s : State) (d : Directive) (rest : List Directive), Takeable c d.kind.toNat 0 d rest s →
    (d.kind.toNat ∉ [1, 2, 3, 4, 5, 6, 7, 16, 17, 18, 19, 20, 32, 33, 34, 35, 36, 47] →
      exec (.unknownKind c) s = .next (answeredState c rest d .refused (some .unknownKind) [] s)) ∧
    (∀ kind n row,
      (kind, n, row) ∈ [(2, 11, Instr.setFormat c), (3, 15, .setParameters c), (7, 1, .readStats c), (16, 2, .loadBegin c),
        (17, 2, .loadSegment c), (20, 5, .readTable c), (34, 1, .setDeviceOptions c), (35, 8, .armProbe c)] →
      d.kind.toNat = kind → d.payload.length < n →
      exec row s = .next (answeredState c rest d .refused (some .badArgument) [] s))

/-- When a directive's row finds its directive not to be taken (R159): with none waiting, another kind at the
head, or two taken, nothing differs; with no free place the directive stays, and the channel takes no more at this
output frame start. The idling on another head is the model's choice (log entry 3). -/
def Obligations.DirectiveWaits : Prop :=
  ∀ (c : Chan) (k : Option DirKind) (s : State),
    ((s.ch c).pku.dirQueue = [] → exec (directiveRow c k) s = .next s) ∧
    (∀ d rest, (s.ch c).pku.dirQueue = d :: rest → dirKind? d.kind ≠ k → exec (directiveRow c k) s = .next s) ∧
    (2 ≤ (s.ch c).pku.taken → exec (directiveRow c k) s = .next s) ∧
    (∀ d rest, (s.ch c).pku.dirQueue = d :: rest → dirKind? d.kind = k → k ≠ some .restartDevice →
      (s.ch c).pku.taken < 2 → s.freePlaces c = 0 →
      exec (directiveRow c k) s = .next (s.setCh c { s.ch c with pku := { (s.ch c).pku with taken := 2 } }))

/-- A directive other than RESTART DEVICE changes no other channel, and neither memory, tables, RTU, time, reset
cause nor device address. -/
def Obligations.DirectivesKeepTheRest : Prop :=
  ∀ (c : Chan) (k : Option DirKind) (s : State), k ≠ some .restartDevice →
    ∃ t, exec (directiveRow c k) s = .next t ∧ (∀ e, e ≠ c → t.ch e = s.ch e) ∧
      t.dram = s.dram ∧ t.dramErrs = s.dramErrs ∧ t.tables = s.tables ∧ t.rtu = s.rtu ∧ t.now = s.now ∧
      t.startNo = s.startNo ∧ t.startSeen = s.startSeen ∧ t.resetCause = s.resetCause ∧
      t.deviceAddress = s.deviceAddress ∧ t.pending = s.pending

/-! ### Packets, events and relays -/

/-- CONTROL_PACKET (R156, R157, R158, R172): a faulty packet is discarded with CHECKSUM_FAIL; a directive joins the
queue, or is discarded with DIRECTIVE_OVERRUN when it holds 8; another device's packet is relayed when there is
room (R166), and else discarded and counted. With no line handed on, nothing differs (the
model's choice, log entry 1). -/
def Obligations.ControlPacketSorted : Prop :=
  ∀ (c : Chan) (s : State),
    ((s.ch c).pku.handed = [] → exec (.controlPacket c) s = .next s) ∧
    ∀ (ws : List LineWord) (lines : List (List LineWord)) (ch : Channel), (s.ch c).pku.handed = ws :: lines →
      ch = { s.ch c with pku := { (s.ch c).pku with handed := lines } } →
      (checkedPacket ws = none → exec (.controlPacket c) s = .next (raise c .checksumFail ch.fieldCount (s.setCh c
        { ch with stats := { ch.stats with directivesDiscarded := min 65535 (ch.stats.directivesDiscarded + 1) } }))) ∧
      ∀ (addr kind tag len : Byte) (body : List Byte), checkedPacket ws = some (addr :: kind :: tag :: len :: body) →
        (addr.toNat = s.deviceAddress.toNat → ch.pku.dirQueue.length < 8 →
          exec (.controlPacket c) s = .next (s.setCh c { ch with
            pku := { ch.pku with dirQueue := ch.pku.dirQueue ++ [⟨kind, tag, body.take len.toNat⟩] } })) ∧
        (addr.toNat = s.deviceAddress.toNat → 8 ≤ ch.pku.dirQueue.length →
          exec (.controlPacket c) s = .next (raise c .directiveOverrun ch.fieldCount (s.setCh c
            { ch with stats := { ch.stats with
                directivesDiscarded := min 65535 (ch.stats.directivesDiscarded + 1) } }))) ∧
        (addr.toNat ≠ s.deviceAddress.toNat → 0 < s.freePlaces c → eventCount ch.rep.queue < 6 →
          exec (.controlPacket c) s = .next (s.setCh c
            (withReport (.relay (addr :: kind :: tag :: len :: body)) ch))) ∧
        (addr.toNat ≠ s.deviceAddress.toNat → (s.freePlaces c = 0 ∨ 6 ≤ eventCount ch.rep.queue) →
          exec (.controlPacket c) s = .next (s.setCh c { ch with
            stats := { ch.stats with relaysDiscarded := min 65535 (ch.stats.relaysDiscarded + 1) } }))

/-- Packets read back (R155, R156): a packet formed of its bytes, with any words behind it, passes the checks and
gives its bytes, its kind, tag and payload; and a line that passes carries exactly the words of the bytes it gives,
with a good marker, address, length and sum. -/
def Obligations.PacketsReadBack : Prop :=
  (∀ (addr kind tag : Byte) (payload : List Byte) (extra : List LineWord),
    addr.toNat ≤ 15 → payload.length ≤ 192 →
    ∀ bytes, bytes = withChecksum ([addr, kind, tag, BitVec.ofNat 8 payload.length] ++ payload) →
      checkedPacket (packetWords bytes ++ extra) = some bytes ∧ byteSum bytes % 256 = 0 ∧
      packetDirective bytes = ⟨kind, tag, payload⟩ ∧ packetAddress bytes = addr.toNat) ∧
  (∀ (ws : List LineWord) (bytes : List Byte), checkedPacket ws = some bytes →
    ∃ w extra, ws = w :: 0x155 :: 0x2AA :: (bytes.map (fun b => BitVec.ofNat 10 (256 + b.toNat)) ++ extra) ∧
      (bytes.getD 0 0).toNat ≤ 15 ∧ (bytes.getD 3 0).toNat ≤ 192 ∧
      bytes.length = (bytes.getD 3 0).toNat + 5 ∧ (bytes.map BitVec.toNat).sum % 256 = 0)

/-- R170: an unmasked event meets an empty held status and room (R166) and joins the queue with count 1; else its
kind joins the held status. Nothing else differs. -/
def Obligations.EventRaisedOrHeld : Prop :=
  ∀ (c : Chan) (k : EventKind) (field : Nat) (s : State) (bit : Nat),
    [EventKind.inputLost, .inputRestored, .cadenceLocked, .cadenceLost, .slipDrop, .slipRepeat, .rateMismatch,
      .checksumFail, .directiveOverrun, .eccSingle, .eccDouble, .refLost, .refLocked, .loadAbandoned, .probeHit,
      .restart][bit]? = some k →
    raise c k field s = s.setCh c { s.ch c with rep :=
      (let old := (s.ch c).rep
       if old.mask.getLsbD bit = false ∧ old.held.kinds = 0 ∧ 0 < s.freePlaces c ∧ eventCount old.queue < 6 then
        { old with queue := old.queue ++ [.event (BitVec.ofNat 16 (2 ^ bit)) field 1] }
      else
        { old with held := ⟨old.held.kinds ||| BitVec.ofNat 16 (2 ^ bit),
            if old.held.kinds = 0 then field else old.held.first, min 255 (old.held.count + 1)⟩ }) }


/-! ### Input -/

/-- TIMING_WORD reaches its own channel alone: with a burst in flight no other channel differs at all, and with an
idle arbiter only what a grant moves can. Memory, tables, loader, RTU and the rest of the device stand, and time goes
on by `dt`. In SEEKING and LOSS a word that is no valid field start only sets the loss count, when valid (R11, R17,
R26). Times count in the units of log entry 5. -/
def Obligations.TimingWordReachesItsChannel : Prop :=
  ∀ (c : Chan) (dt : Nat) (w : TimingWord) (line : LineIn) (s : State),
    ∃ t, exec (.timingWord c dt w line) s = .next t ∧ t.now = s.now + dt ∧
      t.dram = s.dram ∧ t.dramErrs = s.dramErrs ∧ t.capture = s.capture ∧ t.inhibitSingle = s.inhibitSingle ∧
      t.tables = s.tables ∧ t.loader = s.loader ∧ t.shadow = s.shadow ∧ t.rtu = s.rtu ∧ t.startSeen = s.startSeen ∧
      t.probe = s.probe ∧ t.resetCause = s.resetCause ∧ t.deviceAddress = s.deviceAddress ∧ t.startNo = s.startNo ∧
      t.pending = s.pending ∧ (t.ch c).scaler.isSome = (s.ch c).scaler.isSome ∧ (t.ch c).out = (s.ch c).out ∧
      (s.arbiter.burst ≠ none → ∀ e, e ≠ c → t.ch e = s.ch e) ∧
      (∀ e, e ≠ c → (t.ch e).ctl = (s.ch e).ctl ∧ (t.ch e).rep = (s.ch e).rep ∧ (t.ch e).stats = (s.ch e).stats ∧
        (t.ch e).pku = (s.ch e).pku ∧ (t.ch e).scaler = (s.ch e).scaler ∧ (t.ch e).out = (s.ch e).out ∧
        (t.ch e).fieldCount = (s.ch e).fieldCount) ∧
      ((s.ch c).recv.state ≠ .inField → (w.valid && w.fieldStart) = false →
        t = { s.setCh c { s.ch c with recv := { (s.ch c).recv with
                lossCount := if w.valid then 0 else (s.ch c).recv.lossCount } } with now := s.now + dt })

/-- A line at its end, at an ordinary line start. An active line of an accepted field (R3, R11,
R17 to R21): its words, clamped and black where missing, join the line buffer behind at most one other line; a line
whose own word was invalid or whose length is wrong is entered as TIMING and counted, a line that finds the buffer full
is discarded, entered as LOST and counted once. Entries go into the record by R19, R20 and R37. Any other line (R17,
R23): a control window line that begins with 0x2AA is handed on, and an open parity vote takes a valid word and closes
at the third or at line V (R16), whose own word does not vote (the model's reading, log entry 16). An active line of
a field that is not accepted is discarded: it is neither stored nor listed nor counted (R17). An IDLE arbiter then grants
what is pending (R50, R51): the line itself, where nothing else waits, so that it leaves the buffer at once (R21). A line's
words arrive with the timing word that ends it (log entry 4). -/
def Obligations.GoodLineIsBuffered : Prop :=
  (∀ (c : Chan) (dt : Nat) (w : TimingWord) (line : LineIn) (s : State) (std : Standard) (k : Nat) (good room : Bool)
      (counted d : Channel),
    (s.ch c).recv.state = .inField → (s.ch c).recv.accepted = true → (s.ch c).recv.voteClosed = true →
    (w.valid && w.fieldStart) = false → std = (s.ch c).recv.fieldStd →
    (s.ch c).recv.lineNo = firstActive std + k → k < activeLines std →
    good = ((s.ch c).recv.lineValid && decide (line.periods = lineLength std)) →
    room = decide ((s.ch c).recv.buffer.length < 2) →
    counted = { s.ch c with stats := { (s.ch c).stats with
      dropoutLines := min 65535 ((s.ch c).stats.dropoutLines + 1) } } →
    d = (match good, room with
      | true, true   => s.ch c
      | true, false  => receiverDropout k .lost counted
      | false, true  => receiverDropout k .timing counted
      | false, false => receiverDropout k .lost (receiverDropout k .timing counted)) →
    ∃ (words : List Nat) (a : State), Assembled std line words ∧
      a = arbitrate { s.setCh c { d with recv := { (s.ch c).recv with
            lossCount := if w.valid then 0 else (s.ch c).recv.lossCount
            assembly := []
            buffer := if room then (s.ch c).recv.buffer ++ [⟨k, words, !good⟩] else (s.ch c).recv.buffer } }
          with now := s.now + dt } ∧
      exec (.timingWord c dt w line) s = .next (a.setCh c { a.ch c with recv := { (a.ch c).recv with
        lineNo := (s.ch c).recv.lineNo + 1
        lineValid := w.valid } }) ∧
      ∀ r, s.arbiter.burst = none → (s.ch c).recv.buffer = [] → fillingRecord d.ring = some r →
        (∀ e, e ≠ c → writeRequest (s.ch e) = none) →
        a.arbiter = ⟨some (.write c r.slot k words), c, s.arbiter.lastRead⟩ ∧ (a.ch c).recv.buffer = []) ∧
  (∀ (ch : Channel) (k : Nat) (cause : Cause),
    (fillingRecord ch.ring = none → receiverDropout k cause ch = ch) ∧
    ∀ r, fillingRecord ch.ring = some r → findRecord ch.ring r.num = some r →
      receiverDropout k cause ch = { ch with
        ring := ch.ring.map (fun x => if x.num = r.num then (offerToRecord k cause x).1 else x)
        stats := if r.damaged = false ∧ (∀ d ∈ r.dropouts, d.line ≠ k) ∧ 16 ≤ r.dropouts.length then
          { ch.stats with damagedFields := min 65535 (ch.stats.damagedFields + 1) } else ch.stats }) ∧
  (∀ (r : FieldRecord) (k : Nat) (cause : Cause), (offerToRecord k cause r).1 =
    if (∃ d ∈ r.dropouts, d.line = k) then
      { r with dropouts := r.dropouts.map (fun d =>
          if d.line = k ∧ d.cause = .timing ∧ cause = .lost then ⟨k, .lost⟩ else d) }
    else if r.dropouts.length < 16 then
      { r with dropouts := r.dropouts.takeWhile (fun d => decide (d.line < k)) ++
          ⟨k, cause⟩ :: r.dropouts.dropWhile (fun d => decide (d.line < k)) }
    else { r with damaged := true }) ∧
  (∀ (c : Chan) (dt : Nat) (w : TimingWord) (line : LineIn) (s a : State) (old moved : Receiver) (first : Nat)
      (ws : List LineWord) (pku : PacketPort),
    old = (s.ch c).recv → old.state = .inField → (w.valid && w.fieldStart) = false →
    first = firstActive old.fieldStd →
    (old.lineNo < first ∨ first + activeLines old.fieldStd ≤ old.lineNo ∨ old.accepted = false) →
    old.lineNo + 1 ≠ flywheelLine old.fieldStd → WindowPart old.fieldStd line ws →
    pku = { (s.ch c).pku with handed := (s.ch c).pku.handed ++
      if first - 4 ≤ old.lineNo ∧ old.lineNo < first ∧ ws[0]? = some 0x2AA then [ws] else [] } →
    a = arbitrate { s.setCh c { s.ch c with
        recv := { old with
          lossCount := if w.valid then 0 else old.lossCount
          assembly := if first ≤ old.lineNo ∧ old.lineNo < first + activeLines old.fieldStd then [] else old.assembly }
        pku := pku }
      with now := s.now + dt } →
    moved = { (a.ch c).recv with
      lineNo := old.lineNo + 1
      lineValid := w.valid
      vote := if old.voteClosed = false ∧ w.valid = true ∧ old.lineNo + 1 ≠ first then old.vote ++ [w.parity]
        else old.vote } →
    ((old.voteClosed = true ∨ (old.lineNo + 1 ≠ first ∧ (w.valid = false ∨ moved.vote.length ≠ 3))) →
      exec (.timingWord c dt w line) s = .next (a.setCh c { a.ch c with recv := moved })) ∧
    (∀ p v, old.voteClosed = false → (old.lineNo + 1 = first ∨ (w.valid = true ∧ moved.vote.length = 3)) →
      decideParity moved.vote old.prevParity = (p, v) →
      exec (.timingWord c dt w line) s = .next (a.setCh c { a.ch c with
        recv := { moved with voteClosed := true, prevParity := some p }
        ring := if old.accepted then (a.ch c).ring.map (fun r =>
            if r.state = .filling then { r with parity := some p, vote := some v } else r) else (a.ch c).ring
        stats := if old.accepted = true ∧ v = .twoOfThree then { (a.ch c).stats with
            parityDisputes := min 65535 ((a.ch c).stats.parityDisputes + 1) } else (a.ch c).stats }))) ∧
  (∀ (a b : Parity) (prev : Option Parity) (other : Parity), a ≠ b →
    other = (match prev with | some .top => .bottom | some .bottom => .top | none => .top) →
    decideParity [a, a, a] prev = (a, .threeOfThree) ∧ decideParity [a, a, b] prev = (a, .twoOfThree) ∧
    decideParity [a, b, a] prev = (a, .twoOfThree) ∧ decideParity [b, a, a] prev = (a, .twoOfThree) ∧
    decideParity [a, a] prev = (a, .twoOfThree) ∧ decideParity [a, b] prev = (other, .twoOfThree) ∧
    decideParity [a] prev = (other, .twoOfThree))

/-- A valid field start (R12, R15, R24, R25, R34, R61, R138). In SEEKING the receiver begins the field; in STARTING,
RUNNING and HALTING it takes its number and a FILLING record in the lowest free slot, in STOPPED it leaves the ring, the
field count and the counters alone. A ring of 8 first loses its oldest unpinned record, a forced drop when that is still
available for output (R34, R35). In IN_FIELD the field in progress is closed first (R14): the open line is judged and,
where the arbiter is IDLE, granted at once (R51); then waiting lines are offered as LOST and missing ones as SHORT and
counted, one that finds 16 entries sets the damaged flag, counted once (R20, R37), the record becomes COMPLETE with its
parity, and the tracker takes the field end (R36); then the new field begins as from SEEKING. An open vote of a field that
was not accepted is dropped (the model's reading, log entry 17). Times count in the units of log entry 5. -/
def Obligations.FieldStartBegins : Prop :=
  (∀ (c : Chan) (dt : Nat) (w : TimingWord) (line : LineIn) (s : State) (offset : Nat) (recv : Receiver),
    (s.ch c).recv.state = .seeking → w.valid = true → w.fieldStart = true →
    offset = (if s.startSeen = true then (match s.rtu.latestStart with
      | some t => min 65535 ((s.now + dt - t) / (match s.rtu.family with | .f50 => 5994 | .f5994 => 5000))
      | none => 0) else 0) →
    recv.state = .inField → recv.lineNo = 0 → recv.fieldStd = (s.ch c).ctl.format.standard →
    recv.accepted = decide ((s.ch c).ctl.state ≠ .stopped) →
    recv.vote = [w.parity] → recv.voteClosed = false → recv.prevParity = (s.ch c).recv.prevParity →
    recv.lineValid = true → recv.assembly = (s.ch c).recv.assembly → recv.buffer = (s.ch c).recv.buffer → recv.lossCount = 0 → recv.latestOffset = some offset →
    recv.drift = (match (s.ch c).recv.latestOffset with
      | none => 0
      | some p => if ((offset : Int) - p) % 65536 < 32768 then ((offset : Int) - p) % 65536
          else ((offset : Int) - p) % 65536 - 65536) →
    ((s.ch c).ctl.state = .stopped → exec (.timingWord c dt w line) s = .next
      { s.setCh c { s.ch c with recv := recv } with now := s.now + dt }) ∧
    ((s.ch c).ctl.state ≠ .stopped → (s.ch c).ctl.state ≠ .lost → (s.ch c).ring.length < 8 →
      ∃ (slot : Fin 8) (field : FieldParams), (∀ r ∈ (s.ch c).ring, r.slot ≠ slot) ∧
        (∀ i, i < slot → ∃ r ∈ (s.ch c).ring, r.slot = i) ∧
        field = (s.ch c).ctl.pendingField.getD (s.ch c).ctl.field ∧
        exec (.timingWord c dt w line) s = .next
          { s.setCh c { s.ch c with
              recv := recv
              fieldCount := ((s.ch c).fieldCount + 1) % 4294967296
              ring := (s.ch c).ring ++ [⟨(s.ch c).fieldCount, slot, .filling, none, none, 0, [], false, offset, none,
                none, none, none, false, 0⟩]
              cad := { (s.ch c).cad with images :=
                (if 3 ≤ (s.ch c).cad.images.length then (s.ch c).cad.images.drop 1 else (s.ch c).cad.images)
                  ++ [⟨(s.ch c).fieldCount, field, []⟩] }
              ctl := { (s.ch c).ctl with field := field, pendingField := none }
              stats := { (s.ch c).stats with
                fieldsReceived := min 65535 ((s.ch c).stats.fieldsReceived + 1) } }
            with now := s.now + dt }) ∧
    ((s.ch c).ctl.state ≠ .stopped → (s.ch c).ctl.state ≠ .lost → (s.ch c).ring.length = 8 →
      ∀ (pre post : List FieldRecord) (r : FieldRecord) (available : Bool), (s.ch c).ring = pre ++ r :: post →
      (∀ x ∈ pre, x.pinned = true) → r.pinned = false →
      (available = true ↔ ∀ n, (s.ch c).ctl.lastOutput = some n →
        1 ≤ ((r.num : Int) - n) % 4294967296 ∧ ((r.num : Int) - n) % 4294967296 ≤ 2147483647) →
      ∃ (t : State) (slot : Fin 8) (field : FieldParams) (images : List Image),
        exec (.timingWord c dt w line) s = .next t ∧ (∀ x ∈ pre ++ post, x.slot ≠ slot) ∧
        (∀ i, i < slot → ∃ x ∈ pre ++ post, x.slot = i) ∧
        field = (s.ch c).ctl.pendingField.getD (s.ch c).ctl.field ∧
        images = (s.ch c).cad.images.filter (fun i => (pre ++ post).any (fun x => x.num == i.num)) ∧
        t.ch c = { s.ch c with
          recv := recv
          fieldCount := ((s.ch c).fieldCount + 1) % 4294967296
          ring := pre ++ post ++ [⟨(s.ch c).fieldCount, slot, .filling, none, none, 0, [], false, offset, none,
            none, none, none, false, 0⟩]
          cad := { (s.ch c).cad with images :=
            (if 3 ≤ images.length then images.drop 1 else images) ++ [⟨(s.ch c).fieldCount, field, []⟩] }
          ctl := { (s.ch c).ctl with field := field, pendingField := none }
          stats := { (s.ch c).stats with
            fieldsReceived := min 65535 ((s.ch c).stats.fieldsReceived + 1)
            fieldsDropped := if available then min 65535 ((s.ch c).stats.fieldsDropped + 1)
              else (s.ch c).stats.fieldsDropped }
          rep := if available then ((raise c .slipDrop r.num s).ch c).rep else (s.ch c).rep } ∧
        (∀ e, e ≠ c → t.ch e = s.ch e) ∧ t.dram = s.dram ∧ t.now = s.now + dt)) ∧
  (∀ (c : Chan) (dt : Nat) (w : TimingWord) (line : LineIn) (s a : State),
    (s.ch c).recv.state = .inField → w.valid = true → w.fieldStart = true →
    a = arbitrate { s.setCh c (endLine line { s.ch c with recv := { (s.ch c).recv with lossCount := 0 } }) with
      now := s.now + dt } →
    ∃ u, FieldClosed c a u ∧ exec (.timingWord c dt w line) s = exec (.timingWord c 0 w line)
      (u.modCh c (fun ch => { ch with recv := { ch.recv with state := .seeking } })))

/-- The line start at V + h + 8 with no valid field-start word is declared a field start (R13). The field in progress is
closed first (R14), as at a valid field start: its open line judged and granted where the arbiter is IDLE (R51). The new
field then begins as at a valid field-start word, with its arrival offset and drift captured (R24, R25), but for the vote,
which is not opened, and the parity: opposite to the previous one, with a FLYWHEEL vote. Accepted, the start is counted. Times
count in the units of log entry 5. -/
def Obligations.FlywheelStartDeclared : Prop :=
  ∀ (c : Chan) (dt : Nat) (w : TimingWord) (line : LineIn) (s a : State) (p : Parity) (offset : Nat),
    (s.ch c).recv.state = .inField → (w.valid && w.fieldStart) = false → (s.ch c).recv.voteClosed = true →
    (s.ch c).recv.lineNo + 1 = (match (s.ch c).recv.fieldStd with | .s625 => 319 | .s525 => 271 | .s405 => 210) →
    p = (match (s.ch c).recv.prevParity with | some .top => .bottom | some .bottom => .top | none => .top) →
    offset = (if s.startSeen = true then (match s.rtu.latestStart with
      | some t => min 65535 ((s.now + dt - t) / (match s.rtu.family with | .f50 => 5994 | .f5994 => 5000))
      | none => 0) else 0) →
    a = arbitrate { s.setCh c (endLine line { s.ch c with recv := { (s.ch c).recv with
      lossCount := if w.valid then 0 else (s.ch c).recv.lossCount } }) with now := s.now + dt } →
    ∃ u v t, FieldClosed c a u ∧
      exec (.timingWord c 0 ⟨true, true, p⟩ line)
        (u.modCh c (fun ch => { ch with recv := { ch.recv with state := .seeking } })) = .next v ∧
      exec (.timingWord c dt w line) s = .next t ∧
      t = v.setCh c { v.ch c with
        recv := { (v.ch c).recv with
          vote := [], voteClosed := true, prevParity := some p, lineValid := w.valid
          lossCount := if w.valid then 0 else (s.ch c).recv.lossCount }
        ring := if (s.ch c).ctl.state = .stopped then (v.ch c).ring else
          (v.ch c).ring.dropLast ++
            (v.ch c).ring.getLast?.toList.map (fun r => { r with parity := some p, vote := some .flywheel })
        stats := if (s.ch c).ctl.state = .stopped then (v.ch c).stats else
          { (v.ch c).stats with flywheelStarts := min 65535 ((v.ch c).stats.flywheelStarts + 1) } } ∧
      (t.ch c).recv.state = .inField ∧ (t.ch c).recv.lineNo = 0 ∧ (t.ch c).recv.vote = [] ∧
      (t.ch c).recv.voteClosed = true ∧ (t.ch c).recv.prevParity = some p ∧
      (t.ch c).recv.fieldStd = (s.ch c).ctl.format.standard ∧ (t.ch c).recv.buffer.length ≤ (s.ch c).recv.buffer.length ∧
      (t.ch c).recv.latestOffset = some offset ∧
      (t.ch c).recv.drift = (match (s.ch c).recv.latestOffset with
        | none => 0
        | some p => if ((offset : Int) - p) % 65536 < 32768 then ((offset : Int) - p) % 65536
            else ((offset : Int) - p) % 65536 - 65536) ∧
      ((s.ch c).ctl.state = .stopped → (t.ch c).recv.accepted = false ∧ (t.ch c).fieldCount = (s.ch c).fieldCount ∧
        (t.ch c).stats.flywheelStarts = (s.ch c).stats.flywheelStarts) ∧
      ((s.ch c).ctl.state ≠ .stopped → (t.ch c).recv.accepted = true ∧
        (t.ch c).fieldCount = ((s.ch c).fieldCount + 1) % 4294967296 ∧
        (t.ch c).stats.flywheelStarts = min 65535 ((s.ch c).stats.flywheelStarts + 1) ∧
        ∃ r, (t.ch c).ring.getLast? = some r ∧ r.num = (s.ch c).fieldCount ∧ r.state = .filling ∧ r.offset = offset ∧
          r.parity = some p ∧ r.vote = some .flywheel ∧ r.dropouts = [] ∧ r.stored = 0 ∧ r.pinned = false)

/-- The first valid field start in LOSS ends the loss (R27, R45, R135): a LOST channel flushes its ring, enters
STARTING with no last output field, and its new record takes slot 0 of the emptied ring; INPUT_RESTORED carries the
field's number; no other channel differs. A HOLD frame in progress is abandoned (R89): its pending read is gone, a read in
flight keeps neither frame nor record (R52), the count of a first reconstruction is published (R99), and the rest of the
output frame is black with its fill outside. That the fill stays also where R135 calls a frame abandoned at line period 0
black throughout is the model's reading (log entry 28). In every channel state the field begins as from SEEKING, with
INPUT_RESTORED raised: a STOPPED channel takes it unaccepted, and the event carries the field count; a HALTING one accepts it
without the flush (R131), and so does one that START took into STARTING during the loss. -/
def Obligations.LossEnds : Prop :=
  (∀ (c : Chan) (dt : Nat) (w : TimingWord) (line : LineIn) (s : State),
    (s.ch c).recv.state = .loss → (s.ch c).recv.latestOffset = none → (s.ch c).ctl.state = .lost →
    w.valid = true → w.fieldStart = true →
    ∃ t r, exec (.timingWord c dt w line) s = .next t ∧
      (t.ch c).recv.state = .inField ∧ (t.ch c).recv.lineNo = 0 ∧ (t.ch c).recv.accepted = true ∧
      (t.ch c).recv.vote = [w.parity] ∧ (t.ch c).recv.drift = 0 ∧ (t.ch c).recv.lossCount = 0 ∧
      (t.ch c).ctl.state = .starting ∧ (t.ch c).ctl.lastOutput = none ∧ (t.ch c).engine = none ∧
      (t.ch c).ring = [r] ∧ r.slot = 0 ∧ r.num = (s.ch c).fieldCount ∧ r.state = .filling ∧ r.pinned = false ∧
      (t.ch c).fieldCount = ((s.ch c).fieldCount + 1) % 4294967296 ∧
      (t.ch c).rep = ((raise c .inputRestored (s.ch c).fieldCount s).ch c).rep ∧
      (t.ch c).scaler = (if (s.ch c).engine = none then (s.ch c).scaler
        else (s.ch c).scaler.map (fun x => { x with abandoned := true })) ∧ (t.ch c).ended = (s.ch c).ended ∧
      (t.ch c).stats = (match (s.ch c).engine with
        | none   => { (s.ch c).stats with fieldsReceived := min 65535 ((s.ch c).stats.fieldsReceived + 1) }
        | some f => PublishedBy f { (s.ch c).stats with
            fieldsReceived := min 65535 ((s.ch c).stats.fieldsReceived + 1) }) ∧
      t.arbiter = { s.arbiter with
        burst := ReadOrphaned c (decide ((s.ch c).engine = none)) false s.arbiter.burst } ∧
      (∀ e, e ≠ c → t.ch e = s.ch e) ∧ t.dram = s.dram ∧ t.dramErrs = s.dramErrs ∧ t.tables = s.tables) ∧
  (∀ (c : Chan) (dt : Nat) (w : TimingWord) (line : LineIn) (s : State), (s.ch c).recv.state = .loss →
    w.valid = true → w.fieldStart = true →
    exec (.timingWord c dt w line) s = exec (.timingWord c dt w line) ((raise c .inputRestored (s.ch c).fieldCount s).modCh c
      (fun ch => { ch with recv := { ch.recv with state := .seeking } }))) ∧
  (∀ (c : Chan) (dt : Nat) (w : TimingWord) (line : LineIn) (s : State) (rep : ReportPort), (s.ch c).recv.state = .loss →
    (s.ch c).recv.latestOffset = none → w.valid = true → w.fieldStart = true →
    rep = ((raise c .inputRestored (s.ch c).fieldCount s).ch c).rep →
    ((s.ch c).ctl.state = .stopped → ∃ recv : Receiver, recv.state = .inField ∧ recv.lineNo = 0 ∧ recv.accepted = false ∧
      recv.vote = [w.parity] ∧ recv.drift = 0 ∧ recv.lossCount = 0 ∧
      exec (.timingWord c dt w line) s = .next { s.setCh c { s.ch c with recv := recv, rep := rep } with now := s.now + dt }) ∧
    ((s.ch c).ctl.state ≠ .stopped → (s.ch c).ctl.state ≠ .lost → (s.ch c).ring.length < 8 →
      ∃ t r, exec (.timingWord c dt w line) s = .next t ∧ (t.ch c).recv.state = .inField ∧ (t.ch c).recv.accepted = true ∧
        (t.ch c).recv.drift = 0 ∧ (t.ch c).recv.lossCount = 0 ∧ (t.ch c).ring = (s.ch c).ring ++ [r] ∧
        r.num = (s.ch c).fieldCount ∧ r.state = .filling ∧ (t.ch c).fieldCount = ((s.ch c).fieldCount + 1) % 4294967296 ∧
        (t.ch c).ctl.state = (s.ch c).ctl.state ∧ (t.ch c).ctl.lastOutput = (s.ch c).ctl.lastOutput ∧
        (t.ch c).ctl.halt = (s.ch c).ctl.halt ∧ (t.ch c).engine = (s.ch c).engine ∧ (t.ch c).scaler = (s.ch c).scaler ∧
        (t.ch c).rep = rep ∧ t.arbiter = s.arbiter ∧ (∀ e, e ≠ c → t.ch e = s.ch e) ∧ t.dram = s.dram))

/-- INPUT_LOSS (R26, R43, R82, R133): when the advance of the output frame start now arriving brings the loss count
to 2, the receiver enters LOSS, the records that R43 names leave the ring, the tracker is cleared, STARTING and
RUNNING become LOST and INPUT_LOST is raised. Otherwise nothing is declared (log entry 2).
That the vote is emptied and closed, and line number and field standard stay, is the model's choice (log entry 25). -/
def Obligations.InputLossDeclared : Prop :=
  ∀ (c : Chan) (s : State),
    ((s.ch c).recv.lossCount = 1 → (s.ch c).recv.state ≠ .loss → (s.ch c).lossDone = false →
      ∃ t, exec (.inputLoss c) s = .next t ∧
        t.ch c = { s.ch c with
          recv := { (s.ch c).recv with state := .loss, accepted := false, vote := [], voteClosed := true, assembly := [],
                                       buffer := [], lossCount := 2, latestOffset := none }
          ring := (s.ch c).ring.filter (fun r => decide (r.state = .complete) &&
            (r.pinned || !(decide ((s.ch c).ctl.state = .starting) || decide ((s.ch c).ctl.state = .running))))
          cad := ⟨.search none, [], none, []⟩
          ctl := { (s.ch c).ctl with state := match (s.ch c).ctl.state with
            | .starting => .lost | .running => .lost | x => x }
          rep := ((raise c .inputLost (s.ch c).fieldCount s).ch c).rep
          lossDone := true } ∧
        (∀ e, e ≠ c → t.ch e = s.ch e) ∧ t.dram = s.dram ∧ t.dramErrs = s.dramErrs ∧ t.tables = s.tables ∧
        t.loader = s.loader ∧ t.rtu = s.rtu ∧ t.capture = s.capture ∧ t.probe = s.probe ∧ t.now = s.now ∧
        t.pending = s.pending) ∧
    (((s.ch c).recv.lossCount ≠ 1 ∨ (s.ch c).recv.state = .loss ∨ (s.ch c).lossDone = true) →
      exec (.inputLoss c) s = .next s)

/-! ### Field-store memory -/

/-- A write burst that completes has written its line, and the arbiter grants the next request or goes IDLE (R51, R52). A
line of legal words reads back whole (R48, R49, R52, R54), and no byte and no stored error outside its 1920 bytes changes;
with no write burst in flight nothing completes. With no write burst to complete,
idling is the model's choice (log entry 1). -/
def Obligations.LineWrittenReadsBack : Prop :=
  ∀ (s : State),
    ((∀ c slot k words, s.arbiter.burst ≠ some (.write c slot k words)) → exec .writeBurstComplete s = .next s) ∧
    ∀ (c : Chan) (slot : Fin 8) (k : Nat) (words : List Nat), s.arbiter.burst = some (.write c slot k words) →
      (∃ t, exec .writeBurstComplete s = .next t ∧ t = arbitrate { s with
        dram := t.dram, dramErrs := t.dramErrs, arbiter := { s.arbiter with burst := none } }) ∧
      (words.length = 1440 → (∀ i, i < 1440 → 64 ≤ words.getD i 0 ∧ words.getD i 0 ≤ (if i % 2 = 1 then 940 else 960)) →
      ∃ t row, exec .writeBurstComplete s = .next t ∧ readLine t c slot k = row ∧
        row.y.size = 720 ∧ row.cb.size = 360 ∧ row.cr.size = 360 ∧
        (∀ i, i < 720 → row.y.getD i 0 = words.getD (2 * i + 1) 0) ∧
        (∀ j, j < 360 → row.cb.getD j 0 = words.getD (4 * j) 0 ∧ row.cr.getD j 0 = words.getD (4 * j + 2) 0) ∧
        (∀ a, (a < (chanNat c * 8 + slot.val) * 1048576 + 1920 * k ∨
            (chanNat c * 8 + slot.val) * 1048576 + 1920 * k + 1920 ≤ a) →
          dramRead t.dram a = dramRead s.dram a ∧ storedError t.dramErrs a = storedError s.dramErrs a) ∧
        t.capture = s.capture ∧ t.tables = s.tables ∧ t.loader = s.loader ∧ t.rtu = s.rtu ∧ t.probe = s.probe ∧
        (∀ e, (t.ch e).stats = (s.ch e).stats ∧ (t.ch e).rep = (s.ch e).rep ∧ (t.ch e).ctl = (s.ch e).ctl))

/-- Grants (R50, R51, R21, R22, R61): an idle arbiter grants the first pending write in rotation, and only without any
the first pending read; it waits while a burst is in flight or nothing is pending. A write is pending while a line waits,
for the slot of the field's record; its grant takes the oldest line from the buffer, counts it in the record's lines stored
(R22) and copies its 360 luma samples at even positions into the field's image (R61). A read is pending when the engine has
raised one, and its grant changes the state of that read alone. Nothing else differs. -/
def Obligations.ArbiterGrantsWritesFirst : Prop :=
  ∀ (s : State) (turn : Chan → Chan → Nat), turn = (fun last c => (chanNat c + 3 - chanNat last) % 4) →
    (s.arbiter.burst ≠ none → arbitrate s = s) ∧
    (∀ c slot l, writeRequest (s.ch c) = some (slot, l) ↔
      (s.ch c).recv.buffer[0]? = some l ∧ ∃ r, fillingRecord (s.ch c).ring = some r ∧ r.slot = slot) ∧
    (∀ c src role k, readRequest (s.ch c) = some (src, role, k) ↔
      ∃ f, (s.ch c).engine = some f ∧ f.read = .pending ∧ role = turnRole f.turn ∧ k = f.turn / 3 ∧
        frameSource f role = some src) ∧
    (∀ c slot l, s.arbiter.burst = none → writeRequest (s.ch c) = some (slot, l) →
      (∀ e, turn s.arbiter.lastWrite e < turn s.arbiter.lastWrite c → writeRequest (s.ch e) = none) →
      ∃ r, fillingRecord (s.ch c).ring = some r ∧ r.slot = slot ∧
        arbitrate s = { s.setCh c { s.ch c with
            recv := { (s.ch c).recv with buffer := (s.ch c).recv.buffer.drop 1 }
            ring := (s.ch c).ring.map (fun x => if x.state = .filling then { x with stored := x.stored + 1 } else x)
            cad := { (s.ch c).cad with images := (s.ch c).cad.images.map (fun i =>
              if i.num = r.num then { i with
                lines := i.lines ++ [(l.line, (List.range 360).map (fun j => l.words.getD (4 * j + 1) 64))] } else i) } } with
          arbiter := ⟨some (.write c slot l.line l.words), c, s.arbiter.lastRead⟩ }) ∧
    (∀ c src role k, s.arbiter.burst = none → (∀ e, writeRequest (s.ch e) = none) →
      readRequest (s.ch c) = some (src, role, k) →
      (∀ e, turn s.arbiter.lastRead e < turn s.arbiter.lastRead c → readRequest (s.ch e) = none) →
      arbitrate s = { s.setCh c { s.ch c with
          engine := (s.ch c).engine.map (fun f => { f with read := .inFlight }) } with
        arbiter := ⟨some (.read c src.slot k role src.num true true), s.arbiter.lastWrite, c⟩ }) ∧
    ((∀ e, writeRequest (s.ch e) = none ∧ readRequest (s.ch e) = none) → arbitrate s = s)

/-- READ_BURST_COMPLETE (R52, R54, R55, R56): each single and each double word of the line counts on the requesting
channel and raises its event there in word order, whatever became of its frame; a double word offers the line to its
record's dropout list with cause ECC while frame and record stand, and one that finds 16 entries sets the damaged flag,
which counts the field as damaged when it was not set (R38). No other statistic and no other record differs. The line,
marked as a dropout when it holds a double word, is handed to the engine, which then goes on. Memory is not written back;
a line whose words are clean, or single with the flipped bit named, is delivered as it was written. With no read burst to
complete, idling is the model's choice (log entry 1). -/
def Obligations.ReadErrorsCounted : Prop :=
  (∀ (s : State), (∀ c slot k role num live present, s.arbiter.burst ≠ some (.read c slot k role num live present)) →
    ∀ line, exec (.readBurstComplete line) s = .next s) ∧
  (∀ (s : State) (c : Chan) (slot : Fin 8) (k : Nat) (role : Role) (num : Nat) (live present : Bool)
      (strikes : List Strike) (read : List Nat) (cls : Nat → WordClass) (offered : Bool) (ring : List FieldRecord),
    s.arbiter.burst = some (.read c slot k role num live present) →
    (s.ch c).stats.eccSingle ≤ 65535 → (s.ch c).stats.eccDouble ≤ 65535 →
    cls = (fun w => ((wordErrorAt (strikeLine c slot k strikes s) c slot k w).map WordError.cls).getD .clean) →
    offered = (live && present && (List.range 240).any (fun w => decide (cls w = .double))) →
    ring = (s.ch c).ring.map (fun r => if offered = true ∧ r.num = num then (offerToRecord k .ecc r).1 else r) →
    ∃ t, exec (.readBurstComplete ⟨strikes, read⟩) s = .next t ∧ t.dram = s.dram ∧
      t.inhibitSingle = s.inhibitSingle ∧ t.inhibitBefore = [] ∧
      t.dramErrs = (strikeLine c slot k strikes s).dramErrs ∧
      (t.ch c).stats = { (s.ch c).stats with
        eccSingle := min 65535 ((s.ch c).stats.eccSingle + (List.range 240).countP (fun w => decide (cls w = .single)))
        eccDouble := min 65535 ((s.ch c).stats.eccDouble + (List.range 240).countP (fun w => decide (cls w = .double)))
        damagedFields := if offered = true ∧ (∃ r, findRecord (s.ch c).ring num = some r ∧ r.damaged = false ∧
            (∀ d ∈ r.dropouts, d.line ≠ k) ∧ 16 ≤ r.dropouts.length) then min 65535 ((s.ch c).stats.damagedFields + 1)
          else (s.ch c).stats.damagedFields } ∧
      (∀ e, e ≠ c → (t.ch e).stats = (s.ch e).stats ∧ (t.ch e).rep = (s.ch e).rep ∧
        (t.ch e).ring.map (fun r => { r with stored := 0 }) = (s.ch e).ring.map (fun r => { r with stored := 0 })) ∧
      (∀ e, (t.ch e).ctl = (s.ch e).ctl ∧ (t.ch e).scaler = (s.ch e).scaler ∧ (t.ch e).pku = (s.ch e).pku) ∧
      t.tables = s.tables ∧ t.loader = s.loader ∧ t.rtu = s.rtu ∧
      (t.ch c).ring.map (fun r => { r with stored := 0 }) = ring.map (fun r => { r with stored := 0 }) ∧
      ((∀ arm, s.probe = .armed arm → arm.chan ≠ c) →
        (t.ch c).rep = (((List.range 240).foldl (fun u w => match cls w with
          | .clean  => u
          | .single => raise c .eccSingle (if present then num else (s.ch c).fieldCount) u
          | .double => raise c .eccDouble (if present then num else (s.ch c).fieldCount) u) s).ch c).rep) ∧
      ∃ u : State, t = pumpEngine c u ∧ u.arbiter.burst = none ∧ (u.ch c).ring = ring ∧ (∀ e, e ≠ c → u.ch e = s.ch e) ∧
        (live = false → (u.ch c).engine = (s.ch c).engine) ∧
        ∀ f, live = true → (s.ch c).engine = some f → (u.ch c).engine = some { f with
          lines := f.lines ++ [⟨turnRole f.turn, turnLine f.turn,
            if (∃ w ∈ List.range 240, cls w = .double) then none
            else some (readLine (strikeLine c slot k strikes s) c slot k)⟩]
          turn := f.turn + 1, read := .idle, delivered := true }) ∧
  (∀ (s : State) (c : Chan) (slot : Fin 8) (k : Nat),
    (∀ w e, w < 240 → wordErrorAt s c slot k w = some e →
      (e.cls = .single ∧ e.flips = (match e.fix with | some i => BitVec.ofNat 64 (2 ^ i.val) | none => 0)) ∨
      (e.cls = .clean ∧ e.flips = 0)) →
    readLine s c slot k = readLine { s with dramErrs := [] } c slot k)

/-- The Error Capture record keeps the first error (R57, R58): CLEAR, it takes the first word offered of the read;
else it keeps place and syndrome, becomes DOUBLE at a double word and notes a later error. A single word is not offered
when the option inhibited it at the time the word was read: a word read before a SET DEVICE OPTIONS of the burst under the
value before it, a later one under the value since. That the command carries how many words were read at each is the model's
choice (log entry 30). -/
def Obligations.CaptureKeepsFirstError : Prop :=
  ∀ (s : State) (c : Chan) (slot : Fin 8) (k : Nat) (role : Role) (num : Nat) (live present : Bool)
      (strikes : List Strike) (read : List Nat) (err : Nat → Option WordError) (inhibited : Nat → Bool)
      (double offered : Nat → Prop),
    s.arbiter.burst = some (.read c slot k role num live present) →
    err = wordErrorAt (strikeLine c slot k strikes s) c slot k →
    double = (fun w => w < 240 ∧ ∃ e, err w = some e ∧ e.cls = .double) →
    inhibited = (fun w => (((s.inhibitBefore.zip read).find? (fun x => decide (w < x.2))).map Prod.fst).getD
      s.inhibitSingle) →
    offered = (fun w => double w ∨ (inhibited w = false ∧ w < 240 ∧ ∃ e, err w = some e ∧ e.cls = .single)) →
    ∃ t, exec (.readBurstComplete ⟨strikes, read⟩) s = .next t ∧
      ((∀ w, ¬ offered w) → t.capture = s.capture) ∧
      (∀ w e, err w = some e → offered w → (∀ v, v < w → ¬ offered v) → s.capture.state = .clear →
        t.capture.chan = c ∧ t.capture.slot = slot ∧ t.capture.line = k ∧ t.capture.word = w ∧
        t.capture.syndrome = e.syndrome ∧ (t.capture.later = true ↔ ∃ v, w < v ∧ offered v) ∧
        (t.capture.state = .double ↔ ∃ v, double v) ∧ t.capture.state ≠ .clear) ∧
      ((∃ w, offered w) → s.capture.state ≠ .clear →
        t.capture.chan = s.capture.chan ∧ t.capture.slot = s.capture.slot ∧ t.capture.line = s.capture.line ∧
        t.capture.word = s.capture.word ∧ t.capture.syndrome = s.capture.syndrome ∧ t.capture.later = true ∧
        (t.capture.state = .double ↔ s.capture.state = .double ∨ ∃ v, double v) ∧ t.capture.state ≠ .clear)


/-! ### The reference timing and the output frame start -/

/-- REFERENCE_PULSE (R115, R118, R119, R136): whatever the RTU's state, it locks to the pulse's family at this moment,
restarts the loss timeout of two nominal periods and issues one output frame start, at which it raises its events
(`pulseNews`). A pulse in the LOCKED state of its family raises nothing; any other raises REF_LOCKED on every channel
with its field count, and one that changes the family also RATE_MISMATCH on the mismatched channels that are not
STOPPED. REF_LOCKED before RATE_MISMATCH on one channel is the model's choice (log entry 27). Times count in the units
of log entry 5. That the RTU's own items change before all other work of the start is the model's choice (log entry
32). With no directive waiting, memory and the device-wide records stand. -/
def Obligations.PulseResult : Prop :=
  (∀ (dt : Nat) (f : Family) (order : List StartWork) (s : State) (r : Rtu),
    r.state = (match f with | .f50 => .locked50 | .f5994 => .locked5994) → r.family = f →
    r.latestPulse = some (s.now + dt) → r.latestStart = some (s.now + dt) →
    r.deadline = s.now + dt + 2 * (65536 * (match f with | .f50 => 5994 | .f5994 => 5000)) →
    exec (.referencePulse dt f order) s =
      .next (issueStart (pulseNews s.rtu f) order { s with now := s.now + dt, rtu := r })) ∧
  (∀ (dt : Nat) (f : Family) (order : List StartWork) (s : State),
    ∃ t, exec (.referencePulse dt f order) s = .next t ∧ t.now = s.now + dt ∧ t.startNo = s.startNo + 1 ∧
      t.rtu.state = (match f with | .f50 => .locked50 | .f5994 => .locked5994) ∧ t.rtu.family = f ∧
      t.rtu.latestPulse = some (s.now + dt) ∧ t.rtu.latestStart = some (s.now + dt) ∧
      t.rtu.deadline = s.now + dt + 2 * (65536 * (match f with | .f50 => 5994 | .f5994 => 5000)) ∧
      t.pending = s.pending ∧ t.deviceAddress = s.deviceAddress ∧
      ((∀ c, (s.ch c).pku.dirQueue = []) → t.dram = s.dram ∧ t.dramErrs = s.dramErrs ∧ t.capture = s.capture ∧
        t.inhibitSingle = s.inhibitSingle ∧ t.resetCause = s.resetCause ∧ t.startSeen = true)) ∧
  (∀ (x : Rtu) (f : Family) (s : State) (c : Chan),
    (x.state = (match f with | .f50 => RtuState.locked50 | .f5994 => .locked5994) → pulseNews x f s = s) ∧
    (x.state ≠ (match f with | .f50 => RtuState.locked50 | .f5994 => .locked5994) →
      (x.family = f ∨ (s.ch c).ctl.state = .stopped ∨ familyOf (s.ch c).ctl.format.standard = f →
        (pulseNews x f s).ch c = (raise c .refLocked (s.ch c).fieldCount s).ch c) ∧
      (x.family ≠ f → (s.ch c).ctl.state ≠ .stopped → familyOf (s.ch c).ctl.format.standard ≠ f →
        (pulseNews x f s).ch c =
          (raise c .rateMismatch (s.ch c).fieldCount (raise c .refLocked (s.ch c).fieldCount s)).ch c)))

/-- REF_LOSS_TIMEOUT in LOCKED (R116) and FREE_RUN_EXPIRY in FREE_RUN (R117): the RTU free-runs on its family, its next
period running, and issues one output frame start at the moment its timer runs out; the timeout raises REF_LOST there on
every channel with its field count, the expiry nothing. Each in the other state finds no timer running, and nothing
differs. Each comes no earlier than its deadline (log entries 1, 5 and 6), and the RTU's own items change before all other
work of the start (log entry 32). -/
def Obligations.TimersExpire : Prop :=
  (∀ (order : List StartWork) (s : State) (at' : Nat), at' = max s.now s.rtu.deadline →
    (s.rtu.state = .freeRun → exec (.refLossTimeout order) s = .next s) ∧
    (s.rtu.state ≠ .freeRun → exec (.freeRunExpiry order) s = .next s) ∧
    (∀ i, (i = .refLossTimeout order ∧ s.rtu.state ≠ .freeRun) ∨ (i = .freeRunExpiry order ∧ s.rtu.state = .freeRun) →
      ∃ t, exec i s = .next t ∧ t.now = at' ∧ t.startNo = s.startNo + 1 ∧ t.rtu.state = .freeRun ∧
        t.rtu.family = s.rtu.family ∧ t.rtu.latestPulse = none ∧ t.rtu.latestStart = some at' ∧
        t.rtu.deadline = at' + 65536 * (match s.rtu.family with | .f50 => 5994 | .f5994 => 5000) ∧
        t.pending = s.pending ∧ t.deviceAddress = s.deviceAddress ∧
        ((∀ c, (s.ch c).pku.dirQueue = []) → t.dram = s.dram ∧ t.dramErrs = s.dramErrs ∧ t.capture = s.capture ∧
          t.inhibitSingle = s.inhibitSingle ∧ t.resetCause = s.resetCause ∧ t.startSeen = true)) ∧
    (∀ r : Rtu, r.state = .freeRun → r.family = s.rtu.family → r.latestPulse = none → r.latestStart = some at' →
      r.deadline = at' + 65536 * (match s.rtu.family with | .f50 => 5994 | .f5994 => 5000) →
      (s.rtu.state ≠ .freeRun → exec (.refLossTimeout order) s =
        .next (issueStart (raiseAll .refLost) order { s with now := at', rtu := r })) ∧
      (s.rtu.state = .freeRun → exec (.freeRunExpiry order) s =
        .next (issueStart id order { s with now := at', rtu := r })))) ∧
  (∀ (s : State) (c : Chan), (raiseAll .refLost s).ch c = (raise c .refLost (s.ch c).fieldCount s).ch c)

/-- An output frame start (R120). It begins a frame on every channel, in whatever order the consumers work (R10, R84,
R104, R105, R150): the frame is at line period 0 in the family the RTU then holds, its format is the one held before any
SET FORMAT taken at this start, also by a row of its own ahead of it (log entry 2), and its coefficients and blend curve
are those the active banks hold after the start, also when a load swaps there. A RESTART DEVICE taken at this start after
a channel's frame has begun takes the frame context away again, and of the frame, at line period 0, the rest is left to be
sent (R122, R165; log entry 29). Every consumer's work is done exactly once, and a directive is taken twice per channel,
in the sender's order first (log entry 2): the RTU's events, the loss counts (R26), the loader (R150, R152), the takings
(R159), and the reports, of which the first move into the window list until it holds 4, after which the held status is
delivered (R168, R171). A piece that has a row of its own does what that row does, and after HALT_COMPLETE the
controller's piece leaves what it would have left without it (R132). For R24 the start has come before any of its work is
done (log entry 31). -/
def Obligations.EveryChannelBeginsAFrame : Prop :=
  (∀ (i : Instr) (order : List StartWork) (dt : Nat) (f : Family) (s t : State),
    (i = .referencePulse dt f order ∨ (i = .refLossTimeout order ∧ s.rtu.state ≠ .freeRun) ∨
      (i = .freeRunExpiry order ∧ s.rtu.state = .freeRun)) →
    exec i s = .next t → ∀ c,
    ((∀ e, ∀ d ∈ (s.ch e).pku.dirQueue, d.kind.toNat ≠ 47) → (t.ch c).scaler ≠ none) ∧
    ((t.ch c).scaler = none → (t.ch c).engine = none ∧
      ∃ x, (t.ch c).ended = some x ∧ x.period = 0 ∧ x.family = t.rtu.family) ∧
    ∀ x, (t.ch c).scaler = some x → (t.ch c).ended = none ∧ x.begun = s.startNo + 1 ∧ x.period = 0 ∧
      x.nextLine = 0 ∧ x.prevLine = none ∧ x.family = t.rtu.family ∧
      x.vcoefs = tableImage t.tables (.coef x.vset) ∧ x.hcoefs = tableImage t.tables (.coef x.hset) ∧
      (∀ g, (t.ch c).engine = some g → g.begun = s.startNo + 1 ∧ g.curve = tableImage t.tables (.curve g.curveNo) ∧
        x.kind = .picture) ∧
      (∀ g, g = (match (s.ch c).ctl.priorFormat with
          | some (p, m) => if m = s.startNo + 1 then p else (s.ch c).ctl.format
          | none => (s.ch c).ctl.format) → x.raster = g.raster ∧ x.aspect = g.aspect ∧ x.fill = g.fill ∧ x.vset = g.vset ∧
          x.hset = g.hset ∧ (x.bandFirst, x.bandCount) = sourceBand g.aspect g.standard)) ∧
  (∀ (news : State → State) (order : List StartWork) (s : State), ∃ l : List StartWork,
    (∀ w, l.count w = (match w with | .packet _ => 2 | _ => 1)) ∧
    ((∀ w, order.count w ≤ (match w with | .packet _ => 2 | _ => 1)) → order <+: l) ∧
    issueStart news order s = closeStart (l.foldl (doWork news (s.startNo + 1))
      { s with startNo := s.startNo + 1, startSeen := true })) ∧
  (∀ (news : State → State) (n m : Nat) (s : State) (c : Chan),
    doWork news n s .announce = news s ∧
    (closeStart s).ch c = { s.ch c with
      pku := { (s.ch c).pku with taken := 0 }, lossDone := false, haltDone := false } ∧
    ((closeStart s).loaderDone = false ∧ (closeStart s).dram = s.dram ∧ (closeStart s).rtu = s.rtu) ∧
    ((s.ch c).lossDone = false → (s.ch c).recv.state ≠ .loss →
      ((s.ch c).recv.lossCount = 1 →
        exec (.inputLoss c) { s with startNo := m } = .next { doWork news n s (.loss c) with startNo := m }) ∧
      ((s.ch c).recv.lossCount = 0 → doWork news n s (.loss c) = s.setCh c
        { s.ch c with recv := { (s.ch c).recv with lossCount := 1 }, lossDone := true })) ∧
    (∀ owner e got idleCount, s.loader = .loading owner e got idleCount → s.loaderDone = false →
      (idleCount < 99 → doWork news n s .loader =
        { s with loader := .loading owner e got (idleCount + 1), loaderDone := true }) ∧
      (idleCount = 99 → exec .loadAbandoned { s with startNo := m } =
        .next { doWork news n s .loader with startNo := m })) ∧
    (∀ owner e tag k, s.loader = .commitPending owner e tag k → s.loaderDone = false → k ≤ m →
      exec .tableSwap { s with startNo := m } = .next { doWork news (m + 1) s .loader with startNo := m }) ∧
    (∀ r t, (s.ch c).ctl.state = .halting → (s.ch c).ctl.halt = some r → r.entry ≤ s.startNo → (s.ch c).haltDone = false →
      exec (.haltComplete c) s = .next t → doWork news (s.startNo + 1) t (.control c) =
        (doWork news (s.startNo + 1) s (.control c)).setCh c
          { (doWork news (s.startNo + 1) s (.control c)).ch c with haltDone := true }) ∧
    (((s.ch c).pku.dirQueue = [] ∨ 2 ≤ (s.ch c).pku.taken) → doWork news n s (.packet c) = s) ∧
    (∀ d rest, (s.ch c).pku.dirQueue = d :: rest →
      exec (directiveRow c (dirKind? d.kind)) { s with startNo := m } =
        .next { doWork news (m + 1) s (.packet c) with startNo := m }) ∧
    ∃ (old : ReportPort) (window queue : List Report) (kinds : BitVec 16), old = (s.ch c).rep ∧
      window = old.window ++ old.queue.take (4 - old.window.length) ∧ queue = old.queue.drop (4 - old.window.length) ∧
      kinds = old.held.kinds &&& ~~~old.mask ∧
      doWork news n s (.report c) = s.setCh c { s.ch c with
        rep :=
          if kinds ≠ 0 ∧ queue.length + s.reserved c < 8 ∧ eventCount queue < 6 then
            { queue := queue ++ [.event kinds old.held.first old.held.count]
              window := window
              held := if old.held.kinds &&& old.mask = 0 then ⟨0, 0, 0⟩
                else ⟨old.held.kinds &&& old.mask, old.held.first, 1⟩
              mask := old.mask }
          else { old with queue := queue, window := window } })

/-- LOAD_ABANDONED (R152): when the advance of the output frame start now arriving brings the idle count to 100, the
loader returns to IDLE, the shadow is emptied and LOAD_ABANDONED is raised on the owner with its field count; else
nothing is abandoned (log entry 2). -/
def Obligations.LoadAbandonedResult : Prop :=
  ∀ (s : State),
    (∀ owner e got, s.loader = .loading owner e got 99 → s.loaderDone = false →
      exec .loadAbandoned s = .next { raise owner .loadAbandoned (s.ch owner).fieldCount
        { s with loader := .idle, shadow := [] } with loaderDone := true }) ∧
    (∀ owner e got n, s.loader = .loading owner e got n → n < 99 → exec .loadAbandoned s = .next s) ∧
    ((∀ owner e got n, s.loader ≠ .loading owner e got n) ∨ s.loaderDone = true → exec .loadAbandoned s = .next s)

/-- TABLE_SWAP (R150, R81): a load committed at an earlier output frame start replaces every byte of its entry and no
other entry, the trackers that follow a swapped pattern give it up, a lock given up counts and raises
CADENCE_LOST with the last decided field, the deferred answer joins the owner's queue, and
the loader is IDLE; a load committed at this start, or none, does not swap. Doing this work as a row ahead of its
output frame start, once, is the model's choice (log entry 2). -/
def Obligations.TableSwapResult : Prop :=
  ∀ (s : State),
    (∀ owner e tag n, s.loader = .commitPending owner e tag n → n ≤ s.startNo → s.loaderDone = false →
      ∃ t, exec .tableSwap s = .next t ∧ tableImage t.tables e = s.shadow ∧
        (∀ e', e' ≠ e → tableImage t.tables e' = tableImage s.tables e') ∧
        t.loader = .idle ∧ t.shadow = [] ∧ t.loaderDone = true ∧
        (t.ch owner).rep.queue.getLast? = some (.answer tag 18 .done none []) ∧
        ((∀ i, e ≠ .pattern i) → ∀ c, (t.ch c).cad = (s.ch c).cad ∧ (t.ch c).stats = (s.ch c).stats ∧
          (t.ch c).rep = (if c = owner then
            { (s.ch c).rep with queue := (s.ch c).rep.queue ++ [.answer tag 18 .done none []] } else (s.ch c).rep)) ∧
        (∀ i, e = .pattern i → ∀ c,
          (t.ch c).cad.track = (match (s.ch c).cad.track with
            | .locked p ph => if p = i then .search none else .locked p ph
            | .hold p ph m => if p = i then .search none else .hold p ph m
            | .search (some x) => if x.pat = i then .search none else .search (some x)
            | .search none => .search none) ∧
          (t.ch c).cad.history = (s.ch c).cad.history ∧
          (t.ch c).stats = (match (s.ch c).cad.track with
            | .locked p _ => if p = i then { (s.ch c).stats with
                cadenceLosses := min 65535 ((s.ch c).stats.cadenceLosses + 1) } else (s.ch c).stats
            | .hold p _ _ => if p = i then { (s.ch c).stats with
                cadenceLosses := min 65535 ((s.ch c).stats.cadenceLosses + 1) } else (s.ch c).stats
            | .search _ => (s.ch c).stats) ∧
          ∀ (lost : Prop) (rep : ReportPort),
            (lost ↔ (∃ ph, (s.ch c).cad.track = .locked i ph) ∨ ∃ ph m, (s.ch c).cad.track = .hold i ph m) →
            (lost → rep = ((raise c .cadenceLost ((s.ch c).cad.lastDecided.getD 0) s).ch c).rep) →
            (¬ lost → rep = (s.ch c).rep) →
            (t.ch c).rep = (if c = owner then { rep with queue := rep.queue ++ [.answer tag 18 .done none []] }
              else rep)) ∧
        (∀ c, (t.ch c).ctl = (s.ch c).ctl ∧ (t.ch c).ring = (s.ch c).ring ∧ (t.ch c).recv = (s.ch c).recv ∧
          (t.ch c).pku = (s.ch c).pku) ∧
        t.dram = s.dram ∧ t.rtu = s.rtu ∧ t.capture = s.capture) ∧
    ((∀ owner e tag n, s.loader = .commitPending owner e tag n → s.startNo < n ∨ s.loaderDone = true) →
      exec .tableSwap s = .next s)

/-- HALT_COMPLETE (R28, R44, R82, R132): a channel whose HALT was taken at an earlier output frame start enters
STOPPED with its ring, tracker and frame gone, and the deferred answer takes its reserved place; otherwise nothing
completes. No other channel differs. Doing this work as a row ahead of its output frame start, once, is the model's
choice (log entry 2). Pending frame values of an earlier start come into force there (R138). -/
def Obligations.HaltCompleteResult : Prop :=
  ∀ (c : Chan) (s : State),
    (∀ r, (s.ch c).ctl.state = .halting → (s.ch c).ctl.halt = some r → r.entry ≤ s.startNo → (s.ch c).haltDone = false →
      ∃ t, exec (.haltComplete c) s = .next t ∧ (t.ch c).ctl.state = .stopped ∧ (t.ch c).ring = [] ∧
        CadenceCleared (t.ch c).cad ∧ (t.ch c).engine = none ∧ (t.ch c).ctl.lastOutput = none ∧
        (t.ch c).ctl.halt = none ∧ (t.ch c).recv.accepted = false ∧ (t.ch c).recv.assembly = [] ∧ (t.ch c).recv.buffer = [] ∧
        (t.ch c).rep.queue = (s.ch c).rep.queue ++ [.answer r.tag 5 .done none []] ∧
        (t.ch c).rep.held = (s.ch c).rep.held ∧ (t.ch c).fieldCount = (s.ch c).fieldCount ∧
        (t.ch c).ctl.format = (s.ch c).ctl.format ∧ (t.ch c).ctl.field = (s.ch c).ctl.field ∧
        (t.ch c).ctl.pendingField = (s.ch c).ctl.pendingField ∧ (t.ch c).recv.state = (s.ch c).recv.state ∧
        ((t.ch c).ctl.frame, (t.ch c).ctl.pendingFrame) = (match (s.ch c).ctl.pendingFrame with
          | some (p, m) => if m ≤ s.startNo then (p, none) else ((s.ch c).ctl.frame, (s.ch c).ctl.pendingFrame)
          | none => ((s.ch c).ctl.frame, none)) ∧
        (t.ch c).pku = (s.ch c).pku ∧ (t.ch c).haltDone = true ∧ t.freePlaces c = s.freePlaces c ∧
        (∀ e, e ≠ c → t.ch e = s.ch e) ∧ t.dram = s.dram ∧ t.tables = s.tables ∧ t.loader = s.loader ∧ t.rtu = s.rtu) ∧
    ((s.ch c).ctl.state ≠ .halting ∨ (s.ch c).haltDone = true ∨
        (∀ r, (s.ch c).ctl.halt = some r → s.startNo < r.entry) →
      exec (.haltComplete c) s = .next s)

/-! ### Output lines -/

/-- OUTPUT_LINE_PERIOD outside pictures (R6, R104, R155, R167, R168): the four lines before output line 0 send the
first report of the window list, which leaves it, or blanking; lines before and after the active ones are blanking;
every active line of a BLACK frame is black, and the frame context's next output line and previous line go by it (R105; a
reading, log entry 23). An output frame that a device reset ended goes on likewise, its active lines
black inside the window and the fill outside (R89, R122; log entry 29), and nothing but output, report window and its place
differs. No memory changes, no other channel's output, reports or statistics change, and with no output frame in progress
nothing happens: that nothing is emitted before the first frame is the model's choice (log entry 19). -/
def Obligations.LinePeriodEmitted : Prop :=
  ∀ (c : Chan) (s : State),
    ((s.ch c).scaler = none → (s.ch c).ended = none → exec (.outputLinePeriod c) s = .next s) ∧
    (∀ (x : EndedFrame) (first height total left width : Nat), (s.ch c).scaler = none → (s.ch c).ended = some x →
      (first, height, total) = (match x.raster with | .r1080 => (41, 1080, 1920) | .r720 => (26, 720, 1280)) →
      (left, width) = activeWindow x.aspect x.raster →
      ∃ out window, exec (.outputLinePeriod c) s = .next (s.setCh c { s.ch c with
          ended := some { x with period := x.period + 1 }
          out := some out
          rep := { (s.ch c).rep with window := window } }) ∧
        (first - 4 ≤ x.period → x.period < first → SendsReport s.deviceAddress (s.ch c)
          { s.ch c with out := some out, rep := { (s.ch c).rep with window := window } }) ∧
        (¬ (first - 4 ≤ x.period ∧ x.period < first) → window = (s.ch c).rep.window) ∧
        ((x.period < first - 4 ∨ first + height ≤ x.period) → out = .blanking) ∧
        (first ≤ x.period → x.period < first + height →
          ∃ row, out = .active row ∧ LineAround total left width x.fill (colourRow width ⟨64, 512, 512⟩) row)) ∧
    ∀ (x : ScalerFrame) (first height width : Nat), (s.ch c).scaler = some x →
      (first, height, width) = (match x.raster with | .r1080 => (41, 1080, 1920) | .r720 => (26, 720, 1280)) →
      ∃ t y, exec (.outputLinePeriod c) s = .next t ∧ (t.ch c).scaler = some y ∧ y.period = x.period + 1 ∧
        y.begun = x.begun ∧ y.raster = x.raster ∧ (t.ch c).ended = (s.ch c).ended ∧
        (first - 4 ≤ x.period → x.period < first → SendsReport s.deviceAddress (s.ch c) (t.ch c)) ∧
        ((x.period < first - 4 ∨ first + height ≤ x.period) →
          (t.ch c).out = some .blanking ∧ (t.ch c).rep.window = (s.ch c).rep.window) ∧
        (first ≤ x.period → x.period < first + height → x.kind = .black →
          ∃ row, (t.ch c).out = some (.active row) ∧ row.y.toList = List.replicate width 64 ∧
            row.cb.toList = List.replicate (width / 2) 512 ∧ row.cr.toList = List.replicate (width / 2) 512 ∧
            y.nextLine = x.period - first + 1 ∧
            y.prevLine = some (colourRow (activeWindow x.aspect x.raster).2 ⟨64, 512, 512⟩)) ∧
        t.dram = s.dram ∧ t.dramErrs = s.dramErrs ∧ t.tables = s.tables ∧ t.loader = s.loader ∧ t.rtu = s.rtu ∧
        t.capture = s.capture ∧ t.now = s.now ∧ t.pending = s.pending ∧ (t.ch c).ctl = (s.ch c).ctl ∧
        (∀ e, e ≠ c → (t.ch e).out = (s.ch e).out ∧ (t.ch e).scaler = (s.ch e).scaler ∧ (t.ch e).rep = (s.ch e).rep ∧
          (t.ch e).stats = (s.ch e).stats ∧ (t.ch e).ctl = (s.ch e).ctl)

/-- An active line of a PICTURE frame (R53, R89, R110 to R113): formed when the four rows its taps read are built; else the
active window of the previous line, black for output line 0, counted as an underrun; black and uncounted when the frame was
abandoned, where the next output line and the previous line go on too (R105; a reading, log entry 23). Outside the window
stands the fill colour. A formed line is filtered twice (R106 to R109, R112): each sample of
the intermediate row from the four rows, by the vertical set at the line's phase, and each sample of the window from four
samples of that row, by the horizontal set at its own phase, luma within 64 to 940 and Cb and Cr within 64 to 960. After the
line, formed or not, the built rows below the lowest tap of the next line are released, after the last line all of them
(R111), and the engine goes on. -/
def Obligations.PictureLineEmitted : Prop :=
  ∀ (c : Chan) (s : State) (x : ScalerFrame) (y first width left total height : Nat), (s.ch c).scaler = some x →
    x.kind = .picture →
    (first, total, height) = (match x.raster with | .r1080 => (41, 1920, 1080) | .r720 => (26, 1280, 720)) →
    x.period = first + y → y < height → (left, width) = activeWindow x.aspect x.raster →
    ∃ t row window, exec (.outputLinePeriod c) s = .next t ∧ (t.ch c).out = some (.active row) ∧
      LineAround total left width x.fill window row ∧
      (∃ z, (t.ch c).scaler = some z ∧ z.prevLine = some window ∧ z.nextLine = y + 1) ∧
      (x.abandoned = true ∨ (s.ch c).engine = none →
        window = colourRow width ⟨64, 512, 512⟩ ∧ (t.ch c).stats = (s.ch c).stats) ∧
      (∀ (f : Frame) (place : Nat → Nat), x.abandoned = false → (s.ch c).engine = some f →
        (∀ n, place n = x.bandFirst + TapAt x.bandCount height y n) →
        (∃ u : State, t = pumpEngine c u ∧ (∀ e, e ≠ c → u.ch e = s.ch e) ∧ (u.ch c).engine = some { f with
          cache := f.cache.filter (fun e => decide (LowestRow x (y + 1) ≤ e.1) && decide (e.1 < x.bandFirst + x.bandCount)) }) ∧
        (∀ rows : Nat → Row, (∀ n, n < 4 → cachedRow f (place n) = some (rows n)) →
          (t.ch c).stats = (s.ch c).stats ∧
          ∃ (middle : Row) (phase : Nat), phase = PhaseAt x.bandCount height y ∧
            (∀ i, i < 720 → middle.y.getD i 0 = FilterAt 940 x.vcoefs phase (fun n => (rows n).y.getD i 0)) ∧
            (∀ j, j < 360 → middle.cb.getD j 0 = FilterAt 960 x.vcoefs phase (fun n => (rows n).cb.getD j 0) ∧
              middle.cr.getD j 0 = FilterAt 960 x.vcoefs phase (fun n => (rows n).cr.getD j 0)) ∧
            (∀ k, k < width → window.y.getD k 0 =
              FilterAt 940 x.hcoefs (PhaseAt 720 width k) (fun n => middle.y.getD (TapAt 720 width k n) 0)) ∧
            (∀ j, j < width / 2 →
              window.cb.getD j 0 = FilterAt 960 x.hcoefs (PhaseAt 360 (width / 2) j)
                (fun n => middle.cb.getD (TapAt 360 (width / 2) j n) 0) ∧
              window.cr.getD j 0 = FilterAt 960 x.hcoefs (PhaseAt 360 (width / 2) j)
                (fun n => middle.cr.getD (TapAt 360 (width / 2) j n) 0))) ∧
        ((∃ n, n < 4 ∧ cachedRow f (place n) = none) →
          window = x.prevLine.getD (colourRow width ⟨64, 512, 512⟩) ∧
          (t.ch c).stats = { (s.ch c).stats with readUnderruns := min 65535 ((s.ch c).stats.readUnderruns + 1) }))

/-! ### Scheduling, cadence and arithmetic -/

/-- The Channel Controller at an output frame start. The frame in progress ends first (R88): its pending read is gone, a
read in flight keeps its frame no longer, a first reconstruction publishes its fallback count (R99), and one of a FILM
frame above its limit moves a LOCKED tracker to HOLD with hold count 0 (R80). Frame values stored at an earlier output
frame start then come into force, those stored at this one do not (R138). Scheduling in RUNNING (R127 to R130): the
eligible records are the COMPLETE ones with a COMPLETE successor that are newer than the last output field; with none the
centre is repeated with SLIP_REPEAT, with one or two the oldest is taken, with more the oldest are dropped, two fewer than
they are, rounded up to an even number before a FILM record. A taken centre and its neighbours are pinned, older COMPLETE
records are released (R40), and each frame advances its centre's uses (R41). STARTING schedules with two COMPLETE records
(R126), LOST follows the loss action (R134), a HALTING channel of an earlier start enters STOPPED with its ring, tracker,
halt record and last output field gone, its field unaccepted and its deferred answer DONE queued last (R28, R44, R82,
R161), and one that HALT was taken from at this start does the work of the state it came from (R132), and the frame
carries picture exactly when a centre was taken or rebuilt (R84, R105). Such a frame takes as sources the pinned centre
and its pinned neighbours, has the centre's decision as its mode, is a first reconstruction when the centre's uses step
from 0 to 1, and latches the parameters in force (R84). After an entry to STOPPED done by HALT_COMPLETE ahead of the start
the frame is BLACK (log entry 2). -/
def Obligations.ScheduleFollowsTheEligibleList : Prop :=
  (∀ (c : Chan) (s : State), ((s.ch c).engine = none → endFrame c s = s) ∧
    ∀ (f : Frame) (excess : Bool), (s.ch c).engine = some f →
      (excess = true ↔ f.first = true ∧ (∃ p, f.mode = .film p) ∧ f.fallbackLimit < f.fallback) →
      endFrame c s = { s.setCh c { s.ch c with
          engine := none
          stats := PublishedBy f (s.ch c).stats
          cad := { (s.ch c).cad with track := match (s.ch c).cad.track, excess with
            | .locked pat ph, true => .hold pat ph 0
            | k, _ => k } } with
        arbiter := { s.arbiter with burst := ReadOrphaned c false true s.arbiter.burst } }) ∧
  (∀ (c : Chan) (s : State) (e : List FieldRecord) (d : Nat),
    e = (((s.ch c).ring.zip ((s.ch c).ring.drop 1)).filter (fun p =>
      decide (p.1.state = .complete) && decide (p.2.state = .complete) &&
      (match (s.ch c).ctl.lastOutput with
        | none => true
        | some n => decide (1 ≤ ((p.1.num : Int) - n) % 4294967296) &&
            decide (((p.1.num : Int) - n) % 4294967296 ≤ 2147483647)))).map Prod.fst →
    (((e.length - 2) % 2 = 1 ∧ ∃ q, (e[e.length - 2]?).bind FieldRecord.decision = some (.film q)) →
      d = e.length - 1) →
    (¬ ((e.length - 2) % 2 = 1 ∧ ∃ q, (e[e.length - 2]?).bind FieldRecord.decision = some (.film q)) →
      d = e.length - 2) →
    (e = [] → ((schedule c s).1.ch c).ctl.lastOutput = (s.ch c).ctl.lastOutput ∧
      ((schedule c s).1.ch c).stats.fieldsDropped = (s.ch c).stats.fieldsDropped ∧
      (∀ r, pinnedCentre (s.ch c) = some r → (schedule c s).2 = true ∧
        ((schedule c s).1.ch c).stats.fieldsRepeated = min 65535 ((s.ch c).stats.fieldsRepeated + 1) ∧
        ((schedule c s).1.ch c).ring = (s.ch c).ring.map (fun z =>
          if z.num = r.num then { z with uses := min 65535 (z.uses + 1) } else z) ∧
        ((schedule c s).1.ch c).rep = ((raise c .slipRepeat r.num s).ch c).rep)) ∧
    (∀ x, e[0]? = some x → e.length ≤ 2 → (schedule c s).2 = true ∧
      ((schedule c s).1.ch c).ctl.lastOutput = some x.num ∧ ((schedule c s).1.ch c).stats = (s.ch c).stats ∧
      ((schedule c s).1.ch c).rep = (s.ch c).rep) ∧
    (3 ≤ e.length → ∃ x, e[d]? = some x ∧ (schedule c s).2 = true ∧
      ((schedule c s).1.ch c).ctl.lastOutput = some x.num ∧
      ((schedule c s).1.ch c).stats.fieldsDropped = min 65535 ((s.ch c).stats.fieldsDropped + d) ∧
      ((schedule c s).1.ch c).rep = ((raise c .slipDrop x.num s).ch c).rep) ∧
    (∀ pre post x y, (s.ch c).ring = pre ++ x :: y :: post → ((s.ch c).ring.map FieldRecord.num).Nodup →
      (e.length ≤ 2 ∧ e[0]? = some x) ∨ (3 ≤ e.length ∧ e[d]? = some x) →
      ((schedule c s).1.ch c).ring =
        (pre.dropLast.filter (fun z => decide (z.state ≠ .complete))).map (fun z => { z with pinned := false }) ++
        pre.getLast?.toList.map (fun z => { z with pinned := true }) ++
        { x with pinned := true, uses := min 65535 (x.uses + 1) } :: { y with pinned := true } ::
        post.map (fun z => { z with pinned := false }))) ∧
  (∀ (c : Chan) (n : Nat) (s : State),
    ((s.ch c).ctl.state = .stopped → chooseFrame c n s = (s, false)) ∧
    ((s.ch c).ctl.state = .running → chooseFrame c n s = schedule c s) ∧
    ((s.ch c).ctl.state = .starting →
      ((s.ch c).ring.countP (fun r => decide (r.state = .complete)) < 2 → chooseFrame c n s = (s, false)) ∧
      (2 ≤ (s.ch c).ring.countP (fun r => decide (r.state = .complete)) →
        chooseFrame c n s = schedule c (s.setCh c { s.ch c with ctl := { (s.ch c).ctl with state := .running } }))) ∧
    ((s.ch c).ctl.state = .lost →
      (((s.ch c).ctl.frame.lossAction = .black ∨ pinnedCentre (s.ch c) = none) → chooseFrame c n s = (s, false)) ∧
      (∀ r, (s.ch c).ctl.frame.lossAction = .hold → pinnedCentre (s.ch c) = some r →
        chooseFrame c n s = (s.setCh c { s.ch c with ring := (s.ch c).ring.map (fun z =>
          if z.num = r.num then { z with uses := min 65535 (z.uses + 1) } else z) }, true))) ∧
    (∀ r, (s.ch c).ctl.state = .halting → (s.ch c).ctl.halt = some r →
      (n ≤ r.entry → r.origin = .running → chooseFrame c n s = schedule c s) ∧
      (n ≤ r.entry → r.origin = .starting →
        ((s.ch c).ring.countP (fun r => decide (r.state = .complete)) < 2 → chooseFrame c n s = (s, false)) ∧
        (2 ≤ (s.ch c).ring.countP (fun r => decide (r.state = .complete)) → chooseFrame c n s = schedule c s)) ∧
      (n ≤ r.entry → r.origin = .lost →
        (((s.ch c).ctl.frame.lossAction = .black ∨ pinnedCentre (s.ch c) = none) → chooseFrame c n s = (s, false)) ∧
        (∀ p, (s.ch c).ctl.frame.lossAction = .hold → pinnedCentre (s.ch c) = some p →
          chooseFrame c n s = (s.setCh c { s.ch c with ring := (s.ch c).ring.map (fun z =>
            if z.num = p.num then { z with uses := min 65535 (z.uses + 1) } else z) }, true))) ∧
      (r.entry < n → chooseFrame c n s = ({ (endFrame c s).setCh c { (endFrame c s).ch c with
            recv := { (s.ch c).recv with accepted := false, assembly := [], buffer := [] }
            ring := []
            cad := ⟨.search none, [], none, []⟩
            ctl := { (s.ch c).ctl with state := .stopped, lastOutput := none, halt := none }
            rep := { (s.ch c).rep with queue := (s.ch c).rep.queue ++ [.answer r.tag 5 .done none []] } } with
          arbiter := { s.arbiter with burst := ReadOrphaned c true false (endFrame c s).arbiter.burst } }, false)))) ∧
  (∀ (news : State → State) (c : Chan) (n : Nat) (s : State) (old ctl : Control) (chosen : State × Bool),
    old = ((endFrame c s).ch c).ctl →
    ctl = (match old.pendingFrame with
      | some (p, m) => if m < n then { old with frame := p, pendingFrame := none } else old
      | none => old) →
    ((s.ch c).haltDone = false →
      chosen = chooseFrame c n ((endFrame c s).setCh c { (endFrame c s).ch c with ctl := ctl })) →
    ((s.ch c).haltDone = true → chosen = (endFrame c s, false)) →
    ∃ t x, t = doWork news n s (.control c) ∧ (t.ch c).ctl = (chosen.1.ch c).ctl ∧
      (t.ch c).stats = (chosen.1.ch c).stats ∧ (t.ch c).rep = (chosen.1.ch c).rep ∧
      (t.ch c).recv = { (chosen.1.ch c).recv with buffer := (t.ch c).recv.buffer } ∧
      ((chosen.1.ch c).recv.buffer = [] → (t.ch c).recv.buffer = []) ∧
      (t.ch c).cad = { (chosen.1.ch c).cad with images := (t.ch c).cad.images } ∧
      (t.ch c).cad.images.map Image.num = (chosen.1.ch c).cad.images.map Image.num ∧
      (t.ch c).ring.map (fun r => (r.num, r.pinned, r.uses)) =
        (chosen.1.ch c).ring.map (fun r => (r.num, r.pinned, r.uses)) ∧
      (t.ch c).scaler = some x ∧ (x.kind = .picture ↔ chosen.2 = true) ∧
      ((t.ch c).engine = none ↔ chosen.2 = false) ∧
      ∀ f, (t.ch c).engine = some f → FrameLatched s.tables n (chosen.1.ch c) f ∧
        (((s.ch c).ring.map FieldRecord.num).Nodup → ∀ r ∈ (s.ch c).ring, r.num = f.centre.num →
          (f.first = true ↔ r.uses = 0)))

/-- The tracker at a field end (R64 to R79). LOCKED keeps to its pattern or enters HOLD; HOLD returns to LOCKED, counts,
or gives up past the hold limit; SEARCH keeps a candidate that still fits, with its run count one higher, and else scans
(R74): entries in ascending order, within each its phases in ascending order, and the first that fits becomes the candidate
with run count 1; with none that fits there is no candidate and the decision is VIDEO. A candidate locks when its run count
reaches the confirm count, at once where that is 1 (R75). A phase byte with code 0 is met by no symbol but UNKNOWN: R143
gives the code no meaning, and that is the model's reading (DEDUCED, log entry 21). The repeat measure counts the samples
that differ from the second predecessor's by more than the noise threshold (R66), the comb measure those of the predecessor
that stand out from both rows beside them (R67), over usable lines (R65); the two form the symbol by their limits (R68), and
measures, symbol, history, state, decision and event are left together. -/
def Obligations.TrackerFieldEnd : Prop :=
  (∀ (t : Tables) (p : FieldParams) (history : List Symbol) (pat : Fin 8) (ph nxt : Nat),
    nxt = (ph + 1) % (t.patterns[pat.val].getD 0 0).toNat →
    ∀ film : Decision, film = .film (PartnerAt t pat nxt) →
    (FitsAt t pat nxt history → trackStep t p history (.locked pat ph) = (.locked pat nxt, film, none) ∧
      (∀ n, trackStep t p history (.hold pat ph n) = (.locked pat nxt, film, none)) ∧
      (∀ run, trackStep t p history (.search (some ⟨pat, ph, run⟩)) =
        if p.confirm ≤ min 15 (run + 1) then (.locked pat nxt, film, some .cadenceLocked)
        else (.search (some ⟨pat, nxt, min 15 (run + 1)⟩), .video, none))) ∧
    (¬ FitsAt t pat nxt history → trackStep t p history (.locked pat ph) = (.hold pat nxt 0, .video, none) ∧
      (∀ n, trackStep t p history (.hold pat ph n) =
        if p.hold < n + 1 then (.search none, .video, some .cadenceLost) else (.hold pat nxt (n + 1), .video, none)) ∧
      (∀ run, trackStep t p history (.search (some ⟨pat, ph, run⟩)) = trackStep t p history (.search none)))) ∧
  (∀ (t : Tables) (p : FieldParams) (history : List Symbol),
    ((∀ pat ph, ¬ FitsAt t pat ph history) → trackStep t p history (.search none) = (.search none, .video, none)) ∧
    ∀ (pat : Fin 8) (ph : Nat), FitsAt t pat ph history →
      (∀ (q : Fin 8) (i : Nat), (q < pat ∨ (q = pat ∧ i < ph)) → ¬ FitsAt t q i history) →
      trackStep t p history (.search none) =
        if p.confirm ≤ 1 then (.locked pat ph, .film (PartnerAt t pat ph), some .cadenceLocked)
        else (.search (some ⟨pat, ph, 1⟩), .video, none)) ∧
  (∀ (i : Image) (r : FieldRecord) (k : Nat), usableLine i r k =
    if (∃ d ∈ r.dropouts, d.line = k) then none else (i.lines.find? (fun x => x.1 == k)).map Prod.snd) ∧
  (∀ (h n : Nat) (i i2 : Image) (r r2 : FieldRecord), repeatMeasure h n i r i2 r2 = min 65535
    ((List.range h).map (fun k => match usableLine i r k, usableLine i2 r2 k with
      | some a, some b => (a.zip b).countP (fun q => decide (n < ((q.1 : Int) - q.2).natAbs))
      | _, _ => 0)).sum) ∧
  (∀ (h n : Nat) (i i1 : Image) (r r1 : FieldRecord) (above : Parity → Nat → Nat),
    (∀ k, above .top k = k ∧ above .bottom k = k - 1) →
    ∀ p, combMeasure h n p i r i1 r1 = min 65535
      (((List.range h).filter (fun k => match p with | .top => decide (k + 1 < h) | .bottom => decide (1 ≤ k))).map
        (fun k => match usableLine i1 r1 k, usableLine i r (above p k), usableLine i r (above p k + 1) with
          | some a, some u, some d => (a.zip (u.zip d)).countP (fun q =>
              decide ((q.2.1 + n < q.1 ∧ q.2.2 + n < q.1) ∨ (q.1 + n < q.2.1 ∧ q.1 + n < q.2.2)))
          | _, _, _ => 0)).sum) ∧
  (∀ (h n : Nat) (images : List Image) (r : FieldRecord) (before : Option FieldRecord) (i : Image),
    imageOf images r.num = some i →
    (∀ m, repeatOf h n images r before = some m ↔ ∃ r2 i2, before = some r2 ∧ imageOf images r2.num = some i2 ∧
      r2.parity = r.parity ∧ m = repeatMeasure h n i r i2 r2) ∧
    (∀ p m, r.parity = some p → (combOf h n images r before = some m ↔ ∃ r1 i1, before = some r1 ∧
      imageOf images r1.num = some i1 ∧ r1.parity = some (match p with | .top => .bottom | .bottom => .top) ∧
      m = combMeasure h n p i r i1 r1))) ∧
  (∀ (damaged : Bool) (c r : Option Nat) (pairLimit repeatLimit : Nat) (paired repeated : Prop),
    (paired ↔ ∃ x, c = some x ∧ x ≤ pairLimit) → (repeated ↔ ∃ x, r = some x ∧ x ≤ repeatLimit) →
    ∀ x, x = formSymbol damaged c r pairLimit repeatLimit →
      (x = .unknown ↔ damaged = true ∨ (c = none ∧ r = none)) ∧
      (x = .pr ↔ damaged = false ∧ paired ∧ repeated) ∧ (x = .p ↔ damaged = false ∧ paired ∧ ¬ repeated) ∧
      (x = .r ↔ damaged = false ∧ ¬ paired ∧ repeated)) ∧
  (∀ (c : Chan) (s : State) (r : FieldRecord) (older : List FieldRecord) (i : Image) (p : FieldParams) (h : Nat)
      (rm cm : Option Nat) (sym : Symbol) (history : List Symbol) (next : Track) (decision : Decision)
      (event : Option EventKind),
    (s.ch c).ring.reverse = r :: older → imageOf (s.ch c).cad.images r.num = some i → p = i.params →
    h = activeLines (s.ch c).ctl.format.standard →
    rm = repeatOf h p.noise (s.ch c).cad.images r older[1]? → cm = combOf h p.comb (s.ch c).cad.images r older[0]? →
    sym = formSymbol r.damaged cm rm p.pairLimit p.repeatLimit → history = (sym :: (s.ch c).cad.history).take 10 →
    (next, decision, event) = trackStep s.tables p history (s.ch c).cad.track →
    ∃ t, t = cadenceFieldEnd c s ∧
      (t.ch c).ring = (s.ch c).ring.map (fun x => if x.num = r.num then { x with
        repeatM := rm, combM := cm, symbol := some sym
        decision := some (if p.policy = .videoOnly then .video else decision) } else x) ∧
      (t.ch c).cad = ⟨next, history, some r.num, (s.ch c).cad.images⟩ ∧
      (t.ch c).rep = (match event with | some k => ((raise c k r.num s).ch c).rep | none => (s.ch c).rep) ∧
      (t.ch c).stats = { (s.ch c).stats with
        cadenceLocks := if event = some .cadenceLocked then min 65535 ((s.ch c).stats.cadenceLocks + 1)
          else (s.ch c).stats.cadenceLocks
        cadenceLosses := if event = some .cadenceLost then min 65535 ((s.ch c).stats.cadenceLosses + 1)
          else (s.ch c).stats.cadenceLosses })

/-- How the engine forms a picture. Its turns go up the line places, at each the centre, then the predecessor, then the
successor (R85). While its read is idle and fewer than 12 built rows await release, a turn whose line is not needed is
skipped and the line treated as listed (R86), and a needed one raises the read, but not while a read of the channel is
in flight (R50). A listed line of a neighbour of the centre's parity is not needed (the model's reading, log entry 22).
Rows are built in the order of R87, each when its lines have been delivered or skipped, and none before a read of the
frame has completed (R175). Where both can go on, rows are built before turns are taken: no rule orders the two, and
that is the model's choice (log entry 20), as is the bound of 2000 on the work at once. A built row joins the cache
while it awaits release (R111), and a fetched line stays while a later row may use it, a repaired line as its repair
(R91). An existing row is the line delivered, or, listed, is repaired from the rows two away, the neighbours or black
(R91). A missing row of a FILM mode with a usable partner is the partner's, but for each sample that combs, which takes
the video value and counts (R97, R98); any other missing row has the video value throughout. The video value is the
blend of the spatial and the temporal estimate by the weight of the motion (R90, R92 to R96), lies between its estimates
for every weight up to 64, and every weight of a valid curve is one (R141). The account of an armed Sample Probe's
sample, in a first reconstruction and under its condition, is captured with PROBE_HIT (R102, R175). -/
def Obligations.BlendLiesBetween : Prop :=
  (∀ (busy : Bool) (ring : List FieldRecord) (f : Frame) (role : Role) (k : Nat),
    (role, k) = (match f.turn % 3 with | 0 => .centre | 1 => .pred | _ => .succ, f.turn / 3) →
    (f.read = .idle → f.turn < 3 * f.height → f.cache.length < 12 →
      (¬ ReadAtItsTurn ring f role k → nextTurn busy ring f =
        some { f with lines := f.lines ++ [⟨role, k, none⟩], turn := f.turn + 1 }) ∧
      (ReadAtItsTurn ring f role k → nextTurn busy ring f = if busy then none else some { f with read := .pending })) ∧
    ((f.read ≠ .idle ∨ 3 * f.height ≤ f.turn ∨ 12 ≤ f.cache.length) → nextTurn busy ring f = none)) ∧
  (∀ (c : Chan) (s : State),
    ((s.ch c).engine = none → ∀ fuel, runEngine c fuel s = s) ∧
    (∀ f busy fuel, (s.ch c).engine = some f → buildNext c s = none →
      (busy = true ↔ ∃ slot line role num live present, s.arbiter.burst = some (.read c slot line role num live present)) →
      (∀ g, nextTurn busy (s.ch c).ring f = some g →
        runEngine c (fuel + 1) s = runEngine c fuel (s.setCh c { s.ch c with engine := some g })) ∧
      (nextTurn busy (s.ch c).ring f = none → runEngine c (fuel + 1) s = s)) ∧
    (∀ f, (s.ch c).engine = some f →
      (2 * f.height ≤ f.rowsBuilt ∨ f.delivered = false ∨ 12 ≤ f.cache.length ∨
        rowReady f (rowAt f.centre.parity f.height f.rowsBuilt) = false) → buildNext c s = none) ∧
    pumpEngine c s = arbitrate (runEngine c 2000 s)) ∧
  (∀ h k : Nat, (0 < h → rowAt .top h 0 = 0 ∧ rowAt .top h (2 * h - 1) = 2 * h - 1) ∧
    (k + 1 < h → rowAt .top h (2 * k + 1) = 2 * k + 2 ∧ rowAt .top h (2 * k + 2) = 2 * k + 1) ∧
    (k < h → rowAt .bottom h (2 * k) = 2 * k + 1 ∧ rowAt .bottom h (2 * k + 1) = 2 * k)) ∧
  (∀ (f : Frame) (r k : Nat), k = r / 2 →
    (supplies f.centre.parity r = true → (rowReady f r = true ↔ 3 * k < f.turn ∧ (usableRow f .centre k ≠ none ∨
      ((k + 1 < f.height → 3 * (k + 1) < f.turn) ∧ (BothOfCentreParity f → 3 * k + 2 < f.turn))))) ∧
    (supplies f.centre.parity r = false → (rowReady f r = true ↔
      (OppositeParity f .pred → 3 * k + 1 < f.turn) ∧ (OppositeParity f .succ → 3 * k + 2 < f.turn)))) ∧
  (∀ w a b : Nat, w ≤ 64 → min a b ≤ blend w a b ∧ blend w a b ≤ max a b) ∧
  (∀ a b, blend 64 a b = a ∧ blend 0 a b = b) ∧
  (∀ (i : Fin 4) (image : List Byte) (m : Nat), entryValid (.curve i) image = true → motionWeight image m ≤ 64) ∧
  (∀ (curve : List Byte) (a b : Row) (temporal : Option (Row × Row)) (x : Nat),
    (∀ n, motionWeight curve n ≤ 64) →
    let e := videoLuma curve a b temporal x
    min e.s (e.t.getD e.s) ≤ e.o ∧ e.o ≤ max e.s (e.t.getD e.s)) ∧
  (∀ (curve : List Byte) (a b p q : Row) (x : Nat) (e : Estimate),
    (e = videoLuma curve a b none x → SpatialAt a.y b.y x e.s ∧ e = ⟨e.s, none, 0, 64, e.s⟩) ∧
    (e = videoLuma curve a b (some (p, q)) x → SpatialAt a.y b.y x e.s ∧
      e.t = some ((p.y.getD x 0 + q.y.getD x 0 + 1) / 2) ∧
      e.m = max ((p.y.getD (x - 1) 0 : Int) - q.y.getD (x - 1) 0).natAbs (max ((p.y.getD x 0 : Int) - q.y.getD x 0).natAbs
        ((p.y.getD (min 719 (x + 1)) 0 : Int) - q.y.getD (min 719 (x + 1)) 0).natAbs) ∧
      e.w = (curve.getD (e.m / 32) 0).toNat ∧
      e.o = (e.w * e.s + (64 - e.w) * ((p.y.getD x 0 + q.y.getD x 0 + 1) / 2) + 32) / 64)) ∧
  (∀ (curve : List Byte) (a b : Row) (temporal : Option (Row × Row)) (row : Row), row = videoRow curve a b temporal →
    (∀ x, x < 720 → row.y.getD x 0 = (videoLuma curve a b temporal x).o) ∧
    (∀ j, j < 360 → temporal = none → row.cb.getD j 0 = (a.cb.getD j 0 + b.cb.getD j 0 + 1) / 2 ∧
      row.cr.getD j 0 = (a.cr.getD j 0 + b.cr.getD j 0 + 1) / 2) ∧
    (∀ j p q w, j < 360 → temporal = some (p, q) → w = (videoLuma curve a b temporal (2 * j)).w →
      row.cb.getD j 0 = (w * ((a.cb.getD j 0 + b.cb.getD j 0 + 1) / 2) +
        (64 - w) * ((p.cb.getD j 0 + q.cb.getD j 0 + 1) / 2) + 32) / 64 ∧
      row.cr.getD j 0 = (w * ((a.cr.getD j 0 + b.cr.getD j 0 + 1) / 2) +
        (64 - w) * ((p.cr.getD j 0 + q.cr.getD j 0 + 1) / 2) + 32) / 64)) ∧
  (∀ (f : Frame) (r k col : Nat) (b : Built), k = r / 2 → r < 2 * f.height → b = buildRow f r col →
    supplies f.centre.parity r = true →
    b.fallbacks = 0 ∧ b.mode = f.mode ∧ b.fellBack = false ∧
    b.est = ⟨b.row.y.getD col 0, none, 0, 64, b.row.y.getD col 0⟩ ∧
    (∀ a, usableRow f .centre k = some a → b.row = a) ∧
    (usableRow f .centre k = none → ∀ above below : Option Row,
      above = (if k = 0 then none else usableRow f .centre (k - 1)) →
      below = (if f.height ≤ k + 1 then none else usableRow f .centre (k + 1)) →
      (∀ u v, above = some u → below = some v → AverageOf u v b.row) ∧
      (∀ u, above = some u → below = none → b.row = u) ∧ (∀ v, above = none → below = some v → b.row = v) ∧
      (∀ p q, above = none → below = none → bothSameParity f = true → usableRow f .pred k = some p →
        usableRow f .succ k = some q → AverageOf p q b.row) ∧
      (above = none → below = none →
        (bothSameParity f = false ∨ usableRow f .pred k = none ∨ usableRow f .succ k = none) →
        b.row = colourRow 720 ⟨64, 512, 512⟩))) ∧
  (∀ (f : Frame) (r k col : Nat) (a d : Row) (temporal : Option (Row × Row)) (b : Built) (video : Row),
    k = r / 2 → r < 2 * f.height → b = buildRow f r col → supplies f.centre.parity r = false →
    usableRow f .centre (if r = 0 then (r + 1) / 2 else (r - 1) / 2) = some a →
    usableRow f .centre (if 2 * f.height ≤ r + 1 then (r - 1) / 2 else (r + 1) / 2) = some d →
    (∀ p q, temporal = some (p, q) ↔ oppositeSource f .pred = true ∧ oppositeSource f .succ = true ∧
      usableRow f .pred k = some p ∧ usableRow f .succ k = some q) →
    video = videoRow f.curve a d temporal →
    b.mode = f.mode ∧
    ((f.mode = .video ∨ (f.mode = .film .prev ∧ (oppositeSource f .pred = false ∨ usableRow f .pred k = none)) ∨
        (f.mode = .film .next ∧ (oppositeSource f .succ = false ∨ usableRow f .succ k = none))) →
      b.row = video ∧ b.fallbacks = 0 ∧ b.fellBack = false ∧ b.est = videoLuma f.curve a d temporal col) ∧
    (∀ p (woven : Nat → Bool), (f.mode = .film .prev ∧ oppositeSource f .pred = true ∧ usableRow f .pred k = some p) ∨
        (f.mode = .film .next ∧ oppositeSource f .succ = true ∧ usableRow f .succ k = some p) →
      (∀ x, woven x = false ↔
        (a.y.getD x 0 + f.comb < p.y.getD x 0 ∧ d.y.getD x 0 + f.comb < p.y.getD x 0) ∨
        (p.y.getD x 0 + f.comb < a.y.getD x 0 ∧ p.y.getD x 0 + f.comb < d.y.getD x 0)) →
      (∀ x, x < 720 → b.row.y.getD x 0 = if woven x then p.y.getD x 0 else video.y.getD x 0) ∧
      (∀ j, j < 360 → b.row.cb.getD j 0 = (if woven (2 * j) then p.cb.getD j 0 else video.cb.getD j 0) ∧
        b.row.cr.getD j 0 = (if woven (2 * j) then p.cr.getD j 0 else video.cr.getD j 0)) ∧
      b.fallbacks = (List.range 720).countP (fun x => !woven x) ∧ b.fellBack = !woven col ∧
      b.est = (if woven col then { videoLuma f.curve a d temporal col with
          t := some (p.y.getD col 0), w := 0, o := p.y.getD col 0 } else videoLuma f.curve a d temporal col))) ∧
  (∀ (c : Chan) (s : State) (f : Frame) (sc : ScalerFrame) (r col : Nat), (s.ch c).engine = some f →
    (s.ch c).scaler = some sc → r = rowAt f.centre.parity f.height f.rowsBuilt → f.rowsBuilt < 2 * f.height →
    f.delivered = true → f.cache.length < 12 → rowReady f r = true →
    (∀ arm, s.probe = .armed arm → col = arm.column) →
    ∃ t g b, b = buildRow f r col ∧ buildNext c s = some t ∧ (∀ fuel, runEngine c (fuel + 1) s = runEngine c fuel t) ∧
      (t.ch c).engine = some g ∧ g = { f with
        rowsBuilt := f.rowsBuilt + 1
        cache := if LowestRow sc sc.nextLine ≤ r ∧ r < sc.bandFirst + sc.bandCount then f.cache ++ [(r, b.row)] else f.cache
        fallback := if f.first then min 65535 (f.fallback + b.fallbacks) else f.fallback
        lines := g.lines } ∧
      (∀ role k place, f.rowsBuilt < place → place < 2 * f.height →
        UsesLine f (rowAt f.centre.parity f.height place) role k → fetchedLine g role k =
          if supplies f.centre.parity r = true ∧ role = .centre ∧ k = r / 2 then
            (fetchedLine f role k).map (fun _ => some b.row) else fetchedLine f role k) ∧
      (∀ e, e ≠ c → t.ch e = s.ch e) ∧
      ∀ hit : Prop, (hit ↔ ∃ arm, s.probe = .armed arm ∧ arm.chan = c ∧ arm.row = r ∧ f.first = true ∧
        (match arm.cond with
          | .any => True
          | .film => ∃ q, b.mode = .film q
          | .video => b.mode = .video
          | .fallback => b.fellBack = true
          | .motionAtLeast => arm.m ≤ b.est.m)) →
        (¬ hit → t.probe = s.probe ∧ (t.ch c).rep = (s.ch c).rep) ∧
        (hit → (∀ arm, s.probe = .armed arm → t.probe = .captured arm ⟨f.centre.num, b.mode, b.fellBack, b.est.s, b.est.t,
            b.est.m, b.est.w, b.est.o, match (s.ch c).cad.track with
              | .search _ => .search | .locked _ _ => .locked | .hold _ _ _ => .hold⟩) ∧
          (t.ch c).rep = ((raise c .probeHit f.centre.num s).ch c).rep))

/-- The filter (R109): the sum of the products plus 256, divided by 512 and rounded down, within the component's legal
range; four equal legal samples under coefficients that sum to 512 give that sample back, and every result is legal. -/
def Obligations.EqualSamplesPassTheFilter : Prop :=
  (∀ (c0 c1 c2 c3 v : Int) (s0 s1 s2 s3 : Nat), v = (c0 * s0 + c1 * s1 + c2 * s2 + c3 * s3 + 256) / 512 →
    (filterLuma c0 c1 c2 c3 s0 s1 s2 s3 : Int) = max 64 (min 940 v) ∧
    (filterChroma c0 c1 c2 c3 s0 s1 s2 s3 : Int) = max 64 (min 960 v)) ∧
  (∀ (c0 c1 c2 c3 : Int) (v : Nat), c0 + c1 + c2 + c3 = 512 →
    (64 ≤ v → v ≤ 940 → filterLuma c0 c1 c2 c3 v v v v = v) ∧
    (64 ≤ v → v ≤ 960 → filterChroma c0 c1 c2 c3 v v v v = v)) ∧
  (∀ (c0 c1 c2 c3 : Int) (s0 s1 s2 s3 : Nat),
    64 ≤ filterLuma c0 c1 c2 c3 s0 s1 s2 s3 ∧ filterLuma c0 c1 c2 c3 s0 s1 s2 s3 ≤ 940 ∧
    64 ≤ filterChroma c0 c1 c2 c3 s0 s1 s2 s3 ∧ filterChroma c0 c1 c2 c3 s0 s1 s2 s3 ≤ 960)

/-! ### What every step keeps -/

/-- Every step keeps the DRAM in its canonical form. The form, and 0 for a byte that is not listed, are the model's
choice (log entry 11). -/
def Obligations.MemoryStaysCanonical : Prop :=
  ∀ s t : State, Memory.wf s.dram → step s = .next t → Memory.wf t.dram

/-- Every step keeps report queues, window lists and directive queues within their places, deferred answers counted
in, and the held status sound (R158, R161, R166, R168, R171). -/
def Obligations.QueuesStayWithinTheirPlaces : Prop :=
  ∀ s t : State, QueuesFit s → HeldStatusSound s → step s = .next t → QueuesFit t ∧ HeldStatusSound t

/-- Every step keeps the active tables valid, the built-in entries as they are, and the load state in agreement with
the shadow (R141, R142, R145, R147, R150). -/
def Obligations.TablesStayValid : Prop :=
  ∀ s t : State, LoaderSound s → step s = .next t → LoaderSound t

/-- Every step keeps every counter within 0 to 65535 (R99, R173). -/
def Obligations.CountersStayBounded : Prop :=
  ∀ s t : State, CountersSound s → step s = .next t → CountersSound t

/-- Every step keeps the RTU's state, family, times and deadline in agreement (R114 to R119). -/
def Obligations.RtuStaysSound : Prop :=
  ∀ s t : State, RtuSound s → step s = .next t → RtuSound t

/-- Every step keeps the ring's shape (R32, R33, R39) and the dropout lists' order (R37). Every step keeps the records'
numbers distinct and in ring order and the pins on the centre and its neighbours (R32, R39), in a ring whose records are
fewer than 2^32 - 1 fields old: the field count wraps (R4), so an older record would meet its own number again. -/
def Obligations.RingsKeepTheirShape : Prop :=
  (∀ s t : State, RingsSound s → DropoutsSound s → step s = .next t → RingsSound t ∧ DropoutsSound t) ∧
  (∀ s t : State, RingsSound s → RingOrderSound s → (∀ c, ∀ r ∈ (s.ch c).ring, recordAge (s.ch c) r < 4294967295) →
    step s = .next t → RingOrderSound t)

/-- The reset state meets every invariant. -/
def Obligations.ResetMeetsInvariants : Prop :=
  Memory.wf State.reset.dram ∧ QueuesFit State.reset ∧ HeldStatusSound State.reset ∧ LoaderSound State.reset ∧
  CountersSound State.reset ∧ RtuSound State.reset ∧ RingsSound State.reset ∧ DropoutsSound State.reset ∧
  RingOrderSound State.reset

/-- What only some commands change: the device address only power-on and pin reset (R157); the RTU only these, the
reference pulse and its timers (R122); the active tables only these resets, the swap and the output frame starts
(R141, R150); the DRAM only a completed write, a device reset and an output frame start, which may take RESTART
DEVICE. -/
def Obligations.OnlyTheseCommandsChange : Prop :=
  ∀ (i : Instr) (s t : State), exec i s = .next t → (∀ a b c, i ≠ .powerOnReset a b c) → (∀ a, i ≠ .pinReset a) →
    t.deviceAddress = s.deviceAddress ∧
    ((∀ a b c, i ≠ .referencePulse a b c) → (∀ a, i ≠ .refLossTimeout a) → (∀ a, i ≠ .freeRunExpiry a) →
      t.rtu = s.rtu ∧ t.startNo = s.startNo ∧ (i ≠ .tableSwap → t.tables = s.tables) ∧
      (i ≠ .writeBurstComplete → (∀ c, i ≠ .restartDevice c) → t.dram = s.dram) ∧
      ((∀ k, i ≠ .readBurstComplete k) → i ≠ .writeBurstComplete → (∀ c, i ≠ .restartDevice c) →
        t.dramErrs = s.dramErrs))
end

