-- ==== Sys2Proof/Laws/Cadence.lean ====
section
/-! SUPPORT. The tracker's matching, said once: when a pattern matches the history, and when a scan finds nothing. -/

namespace Sys2Proof.Machine

open Sys2Proof

/-- An expectation code against a letter (R72, R143). -/
theorem expects_mod_four {b : Nat} {has : Bool} {P Q : Prop} (hP : has = true ↔ P) (hQ : has = false ↔ Q) :
    expects (b % 4) has = true ↔ b % 4 = 3 ∨ (b % 4 = 2 ∧ P) ∨ (b % 4 = 1 ∧ Q) := by
  have h : b % 4 = 0 ∨ b % 4 = 1 ∨ b % 4 = 2 ∨ b % 4 = 3 := by omega
  rcases h with h | h | h | h <;> rw [h] <;> simp [expects, ← hP, ← hQ]

/-- A symbol other than UNKNOWN satisfies a phase when it meets both codes of its byte (R72). -/
theorem satisfies_iff (image : List Byte) (ph : Nat) (x : Symbol) :
    satisfies image ph x = true ↔ (x ≠ .unknown → ∀ b, b = (image.getD (1 + ph) 0).toNat →
      (b % 4 = 3 ∨ (b % 4 = 2 ∧ (x = .p ∨ x = .pr)) ∨ (b % 4 = 1 ∧ (x = .neither ∨ x = .r))) ∧
      (b / 4 % 4 = 3 ∨ (b / 4 % 4 = 2 ∧ (x = .r ∨ x = .pr)) ∨ (b / 4 % 4 = 1 ∧ (x = .neither ∨ x = .p)))) := by
  unfold satisfies pairCode repeatCode phaseByte byteAt
  by_cases hx : x = .unknown
  · simp [hx]
  · simp only [hx, decide_false, Bool.false_or, Bool.and_eq_true, ne_eq, not_false_eq_true, true_implies, forall_eq]
    rw [expects_mod_four (P := x = .p ∨ x = .pr) (Q := x = .neither ∨ x = .r),
      expects_mod_four (P := x = .r ∨ x = .pr) (Q := x = .neither ∨ x = .p)] <;> cases x <;> simp_all [hasP, hasR]

/-- A pattern matches the history at a phase exactly when it fits there (R71). -/
theorem patternMatches_iff (t : Tables) (pat : Fin 8) (ph : Nat) (history : List Symbol) :
    patternMatches (patternImage t pat) ph history = true ↔ FitsAt t pat ph history := by
  unfold patternMatches FitsAt patternImage patternLength byteAt
  simp only [Bool.and_eq_true, decide_eq_true_eq, List.all_eq_true, List.mem_range, satisfies_iff, and_assoc]
  refine and_congr_right fun _ => and_congr_right fun _ => and_congr_right fun hl =>
    forall_congr' fun j => imp_congr_right fun hj => ?_
  have hj' : j < history.length := by omega
  have : history[j]? = some (history.getD j .unknown) := by
    rw [List.getElem?_eq_getElem hj']; simp [List.getD, hj']
  rw [this]; simp

/-- A scan finds nothing when no pattern fits (R74). -/
theorem scanPatterns_none {t : Tables} {history : List Symbol} (h : ∀ pat ph, ¬ FitsAt t pat ph history) :
    scanPatterns t history = none := by
  unfold scanPatterns
  simp only [List.findSome?_eq_none_iff, Option.map_eq_none_iff, List.find?_eq_none]
  exact fun i _ ph _ hm => h i ph ((patternMatches_iff ..).1 hm)

end Sys2Proof.Machine
end

