-- ==== Sys2Proof/Laws/State.lean ====
section
/-! SUPPORT. One lemma per field for the update of a channel's record, and reading a channel after writing one. -/

namespace Sys2Proof.Machine

open Sys2Proof

/-! ### Four of a kind -/

/-- One of four, read where it was written. -/
@[simp] theorem quadGet_quadSet_same {α : Type} (q : Quad α) (c : Chan) (x : α) : quadGet (quadSet q c x) c = x := by
  cases c <;> rfl

/-- One of four, read beside where it was written. -/
@[simp] theorem quadGet_quadSet_ne {α : Type} (q : Quad α) {c d : Chan} (h : d ≠ c) (x : α) :
    quadGet (quadSet q c x) d = quadGet q d := by
  cases c <;> cases d <;> first | rfl | exact absurd rfl h

/-- Writing one of four twice keeps the later value. -/
@[simp] theorem quadSet_quadSet {α : Type} (q : Quad α) (c : Chan) (x y : α) :
    quadSet (quadSet q c x) c y = quadSet q c y := by
  cases c <;> rfl

/-- Writing back what one of four holds changes nothing. -/
@[simp] theorem quadSet_quadGet {α : Type} (q : Quad α) (c : Chan) : quadSet q c (quadGet q c) = q := by
  cases c <;> rfl

/-- A property of all four holds after one was replaced by a value that has it. -/
theorem quadSet_forall {α : Type} {P : α → Prop} {q : Quad α} {c : Chan} {x : α} (hq : ∀ d, P (quadGet q d))
    (hx : P x) (d : Chan) : P (quadGet (quadSet q c x) d) := by
  by_cases h : d = c
  · subst h; simpa using hx
  · simpa [h] using hq d

/-! ### A channel of the state -/

/-- A channel's record depends on the channels alone. -/
theorem State.ch_congr {s t : State} (h : s.chans = t.chans) (c : Chan) : s.ch c = t.ch c := by
  unfold State.ch; rw [h]

/-- A channel's record is read where it was written. -/
@[simp] theorem State.ch_setCh_same (s : State) (c : Chan) (x : Channel) : (s.setCh c x).ch c = x :=
  quadGet_quadSet_same _ _ _

/-- The other channels' records stand. -/
@[simp] theorem State.ch_setCh_ne (s : State) {c d : Chan} (h : d ≠ c) (x : Channel) : (s.setCh c x).ch d = s.ch d :=
  quadGet_quadSet_ne _ h _

/-- A channel's record after a change of it. -/
@[simp] theorem State.ch_modCh_same (s : State) (c : Chan) (f : Channel → Channel) : (s.modCh c f).ch c = f (s.ch c) :=
  State.ch_setCh_same _ _ _

/-- The other channels' records after a change of one. -/
@[simp] theorem State.ch_modCh_ne (s : State) {c d : Chan} (h : d ≠ c) (f : Channel → Channel) :
    (s.modCh c f).ch d = s.ch d :=
  State.ch_setCh_ne _ h _

/-- A change of a channel writes the changed record. -/
theorem State.modCh_eq (s : State) (c : Chan) (f : Channel → Channel) : s.modCh c f = s.setCh c (f (s.ch c)) := rfl

/-- Writing a channel twice keeps the later record. -/
@[simp] theorem State.setCh_setCh (s : State) (c : Chan) (x y : Channel) : (s.setCh c x).setCh c y = s.setCh c y := by
  unfold State.setCh; simp

/-- A property that every channel has is kept by a change that keeps it on the channel changed. -/
theorem State.modCh_forall {P : Channel → Prop} {s : State} {c : Chan} {f : Channel → Channel}
    (hs : ∀ d, P (s.ch d)) (hf : P (f (s.ch c))) (d : Chan) : P ((s.modCh c f).ch d) :=
  quadSet_forall (P := P) hs hf d

/-! ### Fields that a change of a channel leaves -/

/-- A channel's record is no part of `dram`. -/
@[simp] theorem State.dram_setCh (s : State) (c : Chan) (x : Channel) : (s.setCh c x).dram = s.dram := rfl

/-- A change of a channel leaves `dram`. -/
@[simp] theorem State.dram_modCh (s : State) (c : Chan) (f : Channel → Channel) : (s.modCh c f).dram = s.dram := rfl

/-- A channel's record is no part of `dramErrs`. -/
@[simp] theorem State.dramErrs_setCh (s : State) (c : Chan) (x : Channel) : (s.setCh c x).dramErrs = s.dramErrs := rfl

/-- A change of a channel leaves `dramErrs`. -/
@[simp] theorem State.dramErrs_modCh (s : State) (c : Chan) (f : Channel → Channel) : (s.modCh c f).dramErrs = s.dramErrs := rfl

/-- A channel's record is no part of `arbiter`. -/
@[simp] theorem State.arbiter_setCh (s : State) (c : Chan) (x : Channel) : (s.setCh c x).arbiter = s.arbiter := rfl

/-- A change of a channel leaves `arbiter`. -/
@[simp] theorem State.arbiter_modCh (s : State) (c : Chan) (f : Channel → Channel) : (s.modCh c f).arbiter = s.arbiter := rfl

/-- A channel's record is no part of `capture`. -/
@[simp] theorem State.capture_setCh (s : State) (c : Chan) (x : Channel) : (s.setCh c x).capture = s.capture := rfl

/-- A change of a channel leaves `capture`. -/
@[simp] theorem State.capture_modCh (s : State) (c : Chan) (f : Channel → Channel) : (s.modCh c f).capture = s.capture := rfl

/-- A channel's record is no part of `inhibitSingle`. -/
@[simp] theorem State.inhibitSingle_setCh (s : State) (c : Chan) (x : Channel) : (s.setCh c x).inhibitSingle = s.inhibitSingle := rfl

/-- A change of a channel leaves `inhibitSingle`. -/
@[simp] theorem State.inhibitSingle_modCh (s : State) (c : Chan) (f : Channel → Channel) : (s.modCh c f).inhibitSingle = s.inhibitSingle := rfl

/-- A channel's record is no part of `inhibitBefore`. -/
@[simp] theorem State.inhibitBefore_setCh (s : State) (c : Chan) (x : Channel) : (s.setCh c x).inhibitBefore = s.inhibitBefore := rfl

/-- A change of a channel leaves `inhibitBefore`. -/
@[simp] theorem State.inhibitBefore_modCh (s : State) (c : Chan) (f : Channel → Channel) : (s.modCh c f).inhibitBefore = s.inhibitBefore := rfl

/-- A channel's record is no part of `tables`. -/
@[simp] theorem State.tables_setCh (s : State) (c : Chan) (x : Channel) : (s.setCh c x).tables = s.tables := rfl

/-- A change of a channel leaves `tables`. -/
@[simp] theorem State.tables_modCh (s : State) (c : Chan) (f : Channel → Channel) : (s.modCh c f).tables = s.tables := rfl

/-- A channel's record is no part of `loader`. -/
@[simp] theorem State.loader_setCh (s : State) (c : Chan) (x : Channel) : (s.setCh c x).loader = s.loader := rfl

/-- A change of a channel leaves `loader`. -/
@[simp] theorem State.loader_modCh (s : State) (c : Chan) (f : Channel → Channel) : (s.modCh c f).loader = s.loader := rfl

/-- A channel's record is no part of `shadow`. -/
@[simp] theorem State.shadow_setCh (s : State) (c : Chan) (x : Channel) : (s.setCh c x).shadow = s.shadow := rfl

/-- A change of a channel leaves `shadow`. -/
@[simp] theorem State.shadow_modCh (s : State) (c : Chan) (f : Channel → Channel) : (s.modCh c f).shadow = s.shadow := rfl

/-- A channel's record is no part of `rtu`. -/
@[simp] theorem State.rtu_setCh (s : State) (c : Chan) (x : Channel) : (s.setCh c x).rtu = s.rtu := rfl

/-- A change of a channel leaves `rtu`. -/
@[simp] theorem State.rtu_modCh (s : State) (c : Chan) (f : Channel → Channel) : (s.modCh c f).rtu = s.rtu := rfl

/-- A channel's record is no part of `startSeen`. -/
@[simp] theorem State.startSeen_setCh (s : State) (c : Chan) (x : Channel) : (s.setCh c x).startSeen = s.startSeen := rfl

/-- A change of a channel leaves `startSeen`. -/
@[simp] theorem State.startSeen_modCh (s : State) (c : Chan) (f : Channel → Channel) : (s.modCh c f).startSeen = s.startSeen := rfl

/-- A channel's record is no part of `probe`. -/
@[simp] theorem State.probe_setCh (s : State) (c : Chan) (x : Channel) : (s.setCh c x).probe = s.probe := rfl

/-- A change of a channel leaves `probe`. -/
@[simp] theorem State.probe_modCh (s : State) (c : Chan) (f : Channel → Channel) : (s.modCh c f).probe = s.probe := rfl

/-- A channel's record is no part of `resetCause`. -/
@[simp] theorem State.resetCause_setCh (s : State) (c : Chan) (x : Channel) : (s.setCh c x).resetCause = s.resetCause := rfl

/-- A change of a channel leaves `resetCause`. -/
@[simp] theorem State.resetCause_modCh (s : State) (c : Chan) (f : Channel → Channel) : (s.modCh c f).resetCause = s.resetCause := rfl

/-- A channel's record is no part of `deviceAddress`. -/
@[simp] theorem State.deviceAddress_setCh (s : State) (c : Chan) (x : Channel) : (s.setCh c x).deviceAddress = s.deviceAddress := rfl

/-- A change of a channel leaves `deviceAddress`. -/
@[simp] theorem State.deviceAddress_modCh (s : State) (c : Chan) (f : Channel → Channel) : (s.modCh c f).deviceAddress = s.deviceAddress := rfl

/-- A channel's record is no part of `loaderDone`. -/
@[simp] theorem State.loaderDone_setCh (s : State) (c : Chan) (x : Channel) : (s.setCh c x).loaderDone = s.loaderDone := rfl

/-- A change of a channel leaves `loaderDone`. -/
@[simp] theorem State.loaderDone_modCh (s : State) (c : Chan) (f : Channel → Channel) : (s.modCh c f).loaderDone = s.loaderDone := rfl

/-- A channel's record is no part of `now`. -/
@[simp] theorem State.now_setCh (s : State) (c : Chan) (x : Channel) : (s.setCh c x).now = s.now := rfl

/-- A change of a channel leaves `now`. -/
@[simp] theorem State.now_modCh (s : State) (c : Chan) (f : Channel → Channel) : (s.modCh c f).now = s.now := rfl

/-- A channel's record is no part of `startNo`. -/
@[simp] theorem State.startNo_setCh (s : State) (c : Chan) (x : Channel) : (s.setCh c x).startNo = s.startNo := rfl

/-- A change of a channel leaves `startNo`. -/
@[simp] theorem State.startNo_modCh (s : State) (c : Chan) (f : Channel → Channel) : (s.modCh c f).startNo = s.startNo := rfl

/-- A channel's record is no part of `draws`. -/
@[simp] theorem State.draws_setCh (s : State) (c : Chan) (x : Channel) : (s.setCh c x).draws = s.draws := rfl

/-- A change of a channel leaves `draws`. -/
@[simp] theorem State.draws_modCh (s : State) (c : Chan) (f : Channel → Channel) : (s.modCh c f).draws = s.draws := rfl

/-- A channel's record is no part of `pending`. -/
@[simp] theorem State.pending_setCh (s : State) (c : Chan) (x : Channel) : (s.setCh c x).pending = s.pending := rfl

/-- A change of a channel leaves `pending`. -/
@[simp] theorem State.pending_modCh (s : State) (c : Chan) (f : Channel → Channel) : (s.modCh c f).pending = s.pending := rfl

/-! ### The output frame of a channel -/

/-- A latched frame context leaves nothing of an ended output frame. -/
@[simp] theorem latchScaler_ended (t : Tables) (f : Family) (n : Nat) (ch : Channel) :
    (latchScaler t f n ch).ended = none := rfl

/-- A pin reset takes the Scaler frame context away. -/
@[simp] theorem pinResetChannel_scaler (ch : Channel) : (pinResetChannel ch).scaler = none := rfl

/-- What a pin reset leaves of the output frame. -/
@[simp] theorem pinResetChannel_ended (ch : Channel) : (pinResetChannel ch).ended = endedFrame ch := rfl

/-- A device restart takes the Scaler frame context away. -/
@[simp] theorem restartChannel_scaler (ch : Channel) : (restartChannel ch).scaler = none := rfl

/-- What a device restart leaves of the output frame. -/
@[simp] theorem restartChannel_ended (ch : Channel) : (restartChannel ch).ended = endedFrame ch := rfl

/-- An abandoned frame keeps its kind. -/
@[simp] theorem abandonScaler_kind (x : ScalerFrame) : (abandonScaler x).kind = x.kind := rfl

/-- An abandoned frame keeps its place. -/
@[simp] theorem abandonScaler_period (x : ScalerFrame) : (abandonScaler x).period = x.period := rfl

/-- An abandoned frame is marked so. -/
@[simp] theorem abandonScaler_abandoned (x : ScalerFrame) : (abandonScaler x).abandoned = true := rfl

end Sys2Proof.Machine
end

