-- ==== Sys2Proof/Laws/Frames.lean ====
section
/-! SUPPORT. What the shared operations leave alone: all but the channels, the arbiter and the Sample Probe. -/

namespace Sys2Proof.Machine

open Sys2Proof

/-- `t` differs from `s` in the channels, the arbiter and the probe at most. -/
def KeepsDevice (s t : State) : Prop :=
  t = { s with chans := t.chans, arbiter := t.arbiter, probe := t.probe }

namespace KeepsDevice

variable {s t u : State}

theorem refl (s : State) : KeepsDevice s s := rfl

theorem trans (h : KeepsDevice s t) (k : KeepsDevice t u) : KeepsDevice s u := by
  cases s; cases t; cases u; simp_all [KeepsDevice]

theorem dram (h : KeepsDevice s t) : t.dram = s.dram := by rw [h]
theorem dramErrs (h : KeepsDevice s t) : t.dramErrs = s.dramErrs := by rw [h]
theorem capture (h : KeepsDevice s t) : t.capture = s.capture := by rw [h]
theorem inhibitSingle (h : KeepsDevice s t) : t.inhibitSingle = s.inhibitSingle := by rw [h]
theorem inhibitBefore (h : KeepsDevice s t) : t.inhibitBefore = s.inhibitBefore := by rw [h]
theorem tables (h : KeepsDevice s t) : t.tables = s.tables := by rw [h]
theorem loader (h : KeepsDevice s t) : t.loader = s.loader := by rw [h]
theorem shadow (h : KeepsDevice s t) : t.shadow = s.shadow := by rw [h]
theorem rtu (h : KeepsDevice s t) : t.rtu = s.rtu := by rw [h]
theorem startSeen (h : KeepsDevice s t) : t.startSeen = s.startSeen := by rw [h]
theorem resetCause (h : KeepsDevice s t) : t.resetCause = s.resetCause := by rw [h]
theorem deviceAddress (h : KeepsDevice s t) : t.deviceAddress = s.deviceAddress := by rw [h]
theorem loaderDone (h : KeepsDevice s t) : t.loaderDone = s.loaderDone := by rw [h]
theorem now (h : KeepsDevice s t) : t.now = s.now := by rw [h]
theorem startNo (h : KeepsDevice s t) : t.startNo = s.startNo := by rw [h]
theorem draws (h : KeepsDevice s t) : t.draws = s.draws := by rw [h]
theorem pending (h : KeepsDevice s t) : t.pending = s.pending := by rw [h]

end KeepsDevice

open KeepsDevice

/-! ### Channels, events and answers -/

theorem keepsDevice_modCh (c : Chan) (f : Channel → Channel) (s : State) : KeepsDevice s (s.modCh c f) := rfl

theorem keepsDevice_setCh (c : Chan) (x : Channel) (s : State) : KeepsDevice s (s.setCh c x) := rfl

theorem keepsDevice_raise (c : Chan) (k : EventKind) (n : Nat) (s : State) : KeepsDevice s (raise c k n s) := by
  unfold raise; split <;> rfl

theorem keepsDevice_eachChan {f : Chan → State → State} (hf : ∀ c s, KeepsDevice s (f c s)) (s : State) :
    KeepsDevice s (eachChan f s) :=
  (((hf _ _).trans (hf _ _)).trans (hf _ _)).trans (hf _ _)

theorem keepsDevice_raiseAll (k : EventKind) (s : State) : KeepsDevice s (raiseAll k s) :=
  keepsDevice_eachChan (fun _ _ => keepsDevice_raise _ _ _ _) s

theorem keepsDevice_deliverHeld (c : Chan) (n : Nat) (s : State) : KeepsDevice s (deliverHeld c n s) := by
  unfold deliverHeld; dsimp only; split <;> rfl

theorem keepsDevice_answer (c : Chan) (tag kind : Byte) (code : AnswerCode) (r : Option Reason) (l : List Byte)
    (s : State) : KeepsDevice s (answer c tag kind code r l s) := rfl

theorem keepsDevice_offerRelay (c : Chan) (l : List Byte) (s : State) : KeepsDevice s (offerRelay c l s) := by
  unfold offerRelay; split <;> rfl

/-! ### The ring and the arbiter -/

theorem keepsDevice_removeFromRing (c : Chan) (ring : List FieldRecord) (s : State) :
    KeepsDevice s (removeFromRing c ring s) := rfl

theorem keepsDevice_flushRing (c : Chan) (s : State) : KeepsDevice s (flushRing c s) := rfl

theorem keepsDevice_release (c : Chan) (n : Nat) (s : State) : KeepsDevice s (release c n s) := rfl

theorem keepsDevice_arbitrate (s : State) : KeepsDevice s (arbitrate s) := by
  unfold arbitrate
  split
  · rfl
  · split
    · rfl
    · split <;> rfl

theorem keepsDevice_burstEnded (s : State) : KeepsDevice s (burstEnded s) :=
  KeepsDevice.trans (t := freeArbiter s) rfl (keepsDevice_arbitrate _)

theorem keepsDevice_leaveFrame (c : Chan) (s : State) : KeepsDevice s (leaveFrame c s) := by
  unfold leaveFrame; split <;> rfl

theorem keepsDevice_abandonFrame (c : Chan) (s : State) : KeepsDevice s (abandonFrame c s) := by
  unfold abandonFrame
  split
  · rfl
  · exact (keepsDevice_leaveFrame c s).trans (keepsDevice_modCh _ _ _)

theorem keepsDevice_forcedDrop (c : Chan) (n : Nat) (s : State) : KeepsDevice s (forcedDrop c n s) :=
  KeepsDevice.trans (keepsDevice_modCh _ _ _) (keepsDevice_raise _ _ _ _)

theorem keepsDevice_reclaim (c : Chan) (s : State) : KeepsDevice s (reclaim c s) := by
  unfold reclaim
  split
  · split
    · rfl
    · dsimp only
      split
      · exact (keepsDevice_removeFromRing _ _ _).trans (keepsDevice_forcedDrop _ _ _)
      · exact keepsDevice_removeFromRing _ _ _
  · rfl

/-! ### The receiver and the tracker -/

theorem keepsDevice_raiseTrackEvent (c : Chan) (e : Option EventKind) (n : Nat) (s : State) :
    KeepsDevice s (raiseTrackEvent c e n s) := by
  unfold raiseTrackEvent
  split
  · exact keepsDevice_raise _ _ _ _
  · rfl

theorem keepsDevice_cadenceFieldEnd (c : Chan) (s : State) : KeepsDevice s (cadenceFieldEnd c s) := by
  unfold cadenceFieldEnd
  split
  · rfl
  · exact (keepsDevice_setCh _ _ _).trans (keepsDevice_raiseTrackEvent _ _ _ _)

theorem keepsDevice_fieldEnd (c : Chan) (s : State) : KeepsDevice s (fieldEnd c s) :=
  (keepsDevice_modCh _ _ _).trans (keepsDevice_cadenceFieldEnd _ _)

theorem keepsDevice_closeField (c : Chan) (line : LineIn) (s : State) : KeepsDevice s (closeField c line s) := by
  unfold closeField
  dsimp only
  split
  · exact (((keepsDevice_modCh _ _ _).trans (keepsDevice_arbitrate _)).trans (keepsDevice_modCh _ _ _)).trans
      (keepsDevice_fieldEnd _ _)
  · exact (keepsDevice_modCh _ _ _).trans (keepsDevice_arbitrate _)

theorem keepsDevice_lostToStarting (c : Chan) (s : State) : KeepsDevice s (lostToStarting c s) :=
  ((keepsDevice_abandonFrame _ _).trans (keepsDevice_flushRing _ _)).trans (keepsDevice_modCh _ _ _)

theorem keepsDevice_acceptField (c : Chan) (p : Option Parity) (s : State) : KeepsDevice s (acceptField c p s) := by
  unfold acceptField
  split
  · dsimp only
    split
    · exact (((keepsDevice_modCh _ _ _).trans (keepsDevice_lostToStarting _ _)).trans (keepsDevice_reclaim _ _)).trans
        (keepsDevice_modCh _ _ _)
    · exact ((keepsDevice_modCh _ _ _).trans (keepsDevice_reclaim _ _)).trans (keepsDevice_modCh _ _ _)
  · rfl

theorem keepsDevice_startField (c : Chan) (w : TimingWord) (s : State) : KeepsDevice s (startField c w s) :=
  (keepsDevice_modCh _ _ _).trans (keepsDevice_acceptField _ _ _)

theorem keepsDevice_startFlywheel (c : Chan) (w : TimingWord) (s : State) : KeepsDevice s (startFlywheel c w s) :=
  (keepsDevice_modCh _ _ _).trans (keepsDevice_acceptField _ _ _)

theorem keepsDevice_endLoss (c : Chan) (w : TimingWord) (s : State) : KeepsDevice s (endLoss c w s) :=
  ((keepsDevice_modCh _ _ _).trans (keepsDevice_raise _ _ _ _)).trans (keepsDevice_acceptField _ _ _)

theorem keepsDevice_lineStart (c : Chan) (w : TimingWord) (line : LineIn) (s : State) :
    KeepsDevice s (lineStart c w line s) := by
  unfold lineStart
  split
  · split
    · exact keepsDevice_startField _ _ _
    · rfl
  · split
    · exact keepsDevice_endLoss _ _ _
    · rfl
  · split
    · exact (keepsDevice_closeField _ _ _).trans (keepsDevice_startField _ _ _)
    · split
      · exact (keepsDevice_closeField _ _ _).trans (keepsDevice_startFlywheel _ _ _)
      · exact ((keepsDevice_modCh _ _ _).trans (keepsDevice_arbitrate _)).trans (keepsDevice_modCh _ _ _)

theorem keepsDevice_declareLoss (c : Chan) (s : State) : KeepsDevice s (declareLoss c s) :=
  ((keepsDevice_removeFromRing _ _ _).trans (keepsDevice_modCh _ _ _)).trans (keepsDevice_raise _ _ _ _)

theorem keepsDevice_lossAdvance (c : Chan) (s : State) : KeepsDevice s (lossAdvance c s) := by
  unfold lossAdvance
  dsimp only
  split
  · rfl
  · split
    · exact keepsDevice_declareLoss _ _
    · rfl

theorem keepsDevice_lossWork (c : Chan) (s : State) : KeepsDevice s (lossWork c s) := by
  unfold lossWork
  split
  · rfl
  · exact (keepsDevice_lossAdvance _ _).trans (keepsDevice_modCh _ _ _)

theorem keepsDevice_swapTracker (i : Fin 8) (c : Chan) (s : State) : KeepsDevice s (swapTracker i c s) := by
  unfold swapTracker
  dsimp only
  split
  · exact ((keepsDevice_setCh _ _ _).trans (keepsDevice_modCh _ _ _)).trans (keepsDevice_raise _ _ _ _)
  · rfl

/-! ### The engine -/

theorem keepsDevice_probeRow (c : Chan) (f : Frame) (r : Nat) (b : Built) (s : State) :
    KeepsDevice s (probeRow c f r b s) := by
  unfold probeRow
  split
  · dsimp only
    split
    · exact KeepsDevice.trans (t := { s with probe := _ }) rfl (keepsDevice_raise _ _ _ _)
    · rfl
  · rfl
  · rfl

theorem keepsDevice_buildNext {c : Chan} {s t : State} (h : buildNext c s = some t) : KeepsDevice s t := by
  unfold buildNext at h
  split at h
  · dsimp only at h
    split at h
    · cases h
      exact (keepsDevice_modCh _ _ _).trans (keepsDevice_probeRow _ _ _ _ _)
    · cases h
  · cases h

theorem keepsDevice_turnNext {c : Chan} {s t : State} (h : turnNext c s = some t) : KeepsDevice s t := by
  unfold turnNext at h
  split at h
  · obtain ⟨f, -, rfl⟩ := Option.map_eq_some_iff.mp h
    rfl
  · cases h

theorem keepsDevice_runEngine (c : Chan) (fuel : Nat) (s : State) : KeepsDevice s (runEngine c fuel s) := by
  induction fuel generalizing s with
  | zero => rfl
  | succ fuel ih =>
    unfold runEngine
    split
    · next h => exact (keepsDevice_buildNext h).trans (ih _)
    · split
      · next h => exact (keepsDevice_turnNext h).trans (ih _)
      · rfl

theorem keepsDevice_pumpEngine (c : Chan) (s : State) : KeepsDevice s (pumpEngine c s) :=
  (keepsDevice_runEngine _ _ _).trans (keepsDevice_arbitrate _)

/-! ### The Channel Controller -/

theorem keepsDevice_endFrame (c : Chan) (s : State) : KeepsDevice s (endFrame c s) := by
  unfold endFrame
  split
  · rfl
  · exact (keepsDevice_leaveFrame _ _).trans (keepsDevice_modCh _ _ _)

theorem keepsDevice_takeCentre (c : Chan) (n : Nat) (s : State) : KeepsDevice s (takeCentre c n s) :=
  ((keepsDevice_modCh _ _ _).trans (keepsDevice_release _ _ _)).trans (keepsDevice_modCh _ _ _)

theorem keepsDevice_repeatCentre (c : Chan) (s : State) : KeepsDevice s (repeatCentre c s).1 := by
  unfold repeatCentre
  split
  · rfl
  · exact (keepsDevice_modCh _ _ _).trans (keepsDevice_raise _ _ _ _)

theorem keepsDevice_dropFields (c : Chan) (d n : Nat) (s : State) : KeepsDevice s (dropFields c d n s) :=
  ((keepsDevice_takeCentre _ _ _).trans (keepsDevice_modCh _ _ _)).trans (keepsDevice_raise _ _ _ _)

theorem keepsDevice_schedule (c : Chan) (s : State) : KeepsDevice s (schedule c s).1 := by
  unfold schedule
  split
  · exact keepsDevice_repeatCentre _ _
  · exact keepsDevice_takeCentre _ _ _
  · exact keepsDevice_takeCentre _ _ _
  · dsimp only
    split
    · exact keepsDevice_dropFields _ _ _ _
    · rfl

theorem keepsDevice_lossActionWork (c : Chan) (s : State) : KeepsDevice s (lossActionWork c s).1 := by
  unfold lossActionWork; split <;> rfl

theorem keepsDevice_startingWork (c : Chan) (x : ChanState) (s : State) : KeepsDevice s (startingWork c x s).1 := by
  unfold startingWork
  split
  · exact (keepsDevice_modCh _ _ _).trans (keepsDevice_schedule _ _)
  · rfl

theorem keepsDevice_originWork (c : Chan) (x : ChanState) (s : State) : KeepsDevice s (originWork c x s).1 := by
  unfold originWork
  split
  · exact keepsDevice_schedule _ _
  · exact keepsDevice_startingWork _ _ _
  · exact keepsDevice_lossActionWork _ _
  · rfl
  · rfl

theorem keepsDevice_completeHalt (c : Chan) (tag : Byte) (s : State) : KeepsDevice s (completeHalt c tag s) :=
  (((keepsDevice_endFrame _ _).trans (keepsDevice_flushRing _ _)).trans (keepsDevice_modCh _ _ _)).trans
    (keepsDevice_answer _ _ _ _ _ _ _)

theorem keepsDevice_haltingWork (c : Chan) (n : Nat) (s : State) : KeepsDevice s (haltingWork c n s).1 := by
  unfold haltingWork
  split
  · rfl
  · split
    · exact keepsDevice_completeHalt _ _ _
    · exact keepsDevice_originWork _ _ _

theorem keepsDevice_chooseFrame (c : Chan) (n : Nat) (s : State) : KeepsDevice s (chooseFrame c n s).1 := by
  unfold chooseFrame
  split
  · rfl
  · exact keepsDevice_startingWork _ _ _
  · exact keepsDevice_schedule _ _
  · exact keepsDevice_haltingWork _ _ _
  · exact keepsDevice_lossActionWork _ _

theorem keepsDevice_controlWork (c : Chan) (n : Nat) (s : State) : KeepsDevice s (controlWork c n s) := by
  unfold controlWork
  dsimp only
  split
  · exact ((keepsDevice_endFrame _ _).trans (keepsDevice_modCh _ _ _)).trans (keepsDevice_pumpEngine _ _)
  · exact ((((keepsDevice_endFrame _ _).trans (keepsDevice_modCh _ _ _)).trans (keepsDevice_chooseFrame _ _ _)).trans
      (keepsDevice_modCh _ _ _)).trans (keepsDevice_pumpEngine _ _)

/-! ### Reports, packets and the RTU's news -/

theorem keepsDevice_reportWork (c : Chan) (s : State) : KeepsDevice s (reportWork c s) :=
  (keepsDevice_modCh _ _ _).trans (keepsDevice_deliverHeld _ _ _)

theorem keepsDevice_discardDirective (c : Chan) (k : EventKind) (s : State) :
    KeepsDevice s (discardDirective c k s) :=
  (keepsDevice_modCh _ _ _).trans (keepsDevice_raise _ _ _ _)

theorem keepsDevice_checkLineOf (c : Chan) (ws : List LineWord) (s : State) : KeepsDevice s (checkLineOf c ws s) := by
  unfold checkLineOf
  split
  · unfold sortPacket
    split
    · unfold joinDirective
      split
      · rfl
      · exact keepsDevice_discardDirective _ _ _
    · exact keepsDevice_offerRelay _ _ _
  · exact keepsDevice_discardDirective _ _ _

theorem keepsDevice_familyChange (f : Family) (c : Chan) (s : State) : KeepsDevice s (familyChange f c s) := by
  unfold familyChange
  split
  · exact keepsDevice_raise _ _ _ _
  · rfl

theorem keepsDevice_pulseNews (x : Rtu) (f : Family) (s : State) : KeepsDevice s (pulseNews x f s) := by
  unfold pulseNews
  split
  · rfl
  · split
    · exact keepsDevice_raiseAll _ _
    · exact (keepsDevice_raiseAll _ _).trans (keepsDevice_eachChan (fun _ _ => keepsDevice_familyChange _ _ _) _)

/-- What is done to the device at a line period, an accepted packet or a line start reaches no table, no memory,
no timer and no queue of commands. -/
theorem keepsDevice_execOutputLinePeriod {c : Chan} {s t : State} (h : execOutputLinePeriod c s = .next t) :
    KeepsDevice s t := by
  unfold execOutputLinePeriod at h
  split at h <;> cases h
  · exact (keepsDevice_modCh _ _ _).trans (keepsDevice_pumpEngine _ _)
  · exact keepsDevice_modCh _ _ _
  · rfl

end Sys2Proof.Machine
end

