-- ==== Sys2Proof/Laws/Memory.lean ====
section
/-! SUPPORT. The DRAM as a list in canonical form: every operation keeps the form; a byte stored is read back,
and the other bytes stand. -/

namespace Sys2Proof.Machine

open Sys2Proof

/-! ### The cells of a block -/

/-- The cells of a block lie in it and hold no 0. -/
theorem mem_blockCells {base : Nat} {bytes : List Byte} {x : Host.Cell} (h : x ∈ blockCells base bytes) :
    base ≤ x.1 ∧ x.1 < base + bytes.length ∧ x.2 ≠ 0 := by
  induction bytes generalizing base with
  | nil => simp [blockCells] at h
  | cons b bs ih =>
    unfold blockCells at h
    split at h
    · obtain ⟨h1, h2, h3⟩ := ih h
      exact ⟨by omega, by simp only [List.length_cons]; omega, h3⟩
    · rcases List.mem_cons.mp h with rfl | h
      · exact ⟨Nat.le_refl _, by simp, ‹_›⟩
      · obtain ⟨h1, h2, h3⟩ := ih h
        exact ⟨by omega, by simp only [List.length_cons]; omega, h3⟩

/-- The cells of a block rise strictly. -/
theorem pairwise_blockCells (base : Nat) (bytes : List Byte) :
    (blockCells base bytes).Pairwise (fun x y => x.1 < y.1) := by
  induction bytes generalizing base with
  | nil => exact List.Pairwise.nil
  | cons b bs ih =>
    unfold blockCells
    split
    · exact ih _
    · refine List.pairwise_cons.mpr ⟨fun y hy => ?_, ih _⟩
      have := (mem_blockCells hy).1
      show base < y.1
      omega

/-- Storing bytes keeps the canonical form. -/
theorem dramWrite_wf {m : List Host.Cell} (h : Memory.wf m) (base : Nat) (bytes : List Byte) :
    Memory.wf (dramWrite m base bytes) := by
  obtain ⟨hs, hz⟩ := h
  constructor
  · unfold dramWrite
    rw [List.pairwise_append, List.pairwise_append]
    refine ⟨⟨hs.filter _, pairwise_blockCells _ _, ?_⟩, hs.filter _, ?_⟩
    · intro x hx y hy
      have hx' : x.1 < base := by simpa using (List.mem_filter.mp hx).2
      have := (mem_blockCells hy).1
      omega
    · intro x hx y hy
      have hy' : base + bytes.length ≤ y.1 := by simpa using (List.mem_filter.mp hy).2
      rcases List.mem_append.mp hx with hx | hx
      · have hx' : x.1 < base := by simpa using (List.mem_filter.mp hx).2
        omega
      · have := (mem_blockCells hx).2.1
        omega
  · intro x hx
    unfold dramWrite at hx
    rcases List.mem_append.mp hx with hx | hx
    · rcases List.mem_append.mp hx with hx | hx
      · exact hz x (List.mem_filter.mp hx).1
      · exact (mem_blockCells hx).2.2
    · exact hz x (List.mem_filter.mp hx).1

/-- The empty memory is in canonical form. -/
theorem memory_wf_nil : Memory.wf [] := by constructor <;> simp

/-- The memory of the reset state is in canonical form. -/
theorem reset_memory_wf : Memory.wf State.reset.dram := memory_wf_nil

/-! ### Reading -/

/-- In a list of cells that avoid an address, the address reads as an unlisted one. -/
theorem dramRead_of_forall_ne {m : List Host.Cell} {a : Nat} (h : ∀ x ∈ m, x.1 ≠ a) : dramRead m a = 0 := by
  have : m.find? (fun x => x.1 == a) = none := List.find?_eq_none.mpr (fun x hx => by simpa using h x hx)
  simp [dramRead, this]

/-- An address is read from the first of two parts that lists it. -/
theorem dramRead_append (l r : List Host.Cell) (a : Nat) :
    dramRead (l ++ r) a = if l.any (fun x => x.1 == a) then dramRead l a else dramRead r a := by
  unfold dramRead
  rw [List.find?_append]
  cases h : l.find? (fun x => x.1 == a) with
  | none =>
    have : l.any (fun x => x.1 == a) = false := by
      simpa [List.any_eq_false] using List.find?_eq_none.mp h
    simp [this]
  | some x =>
    have : l.any (fun x => x.1 == a) = true :=
      List.any_eq_true.mpr ⟨x, List.mem_of_find?_eq_some h, by simpa using List.find?_some h⟩
    simp [this]

/-- A part that does not list an address does not matter to its reading. -/
theorem dramRead_append_left {l r : List Host.Cell} {a : Nat} (h : ∀ x ∈ r, x.1 ≠ a) :
    dramRead (l ++ r) a = dramRead l a := by
  rw [dramRead_append]
  split
  · rfl
  · next hl =>
    rw [dramRead_of_forall_ne h]
    refine (dramRead_of_forall_ne fun x hx e => hl ?_).symm
    exact List.any_eq_true.mpr ⟨x, hx, by simpa using e⟩

/-- A first part that does not list an address does not matter to its reading. -/
theorem dramRead_append_right {l r : List Host.Cell} {a : Nat} (h : ∀ x ∈ l, x.1 ≠ a) :
    dramRead (l ++ r) a = dramRead r a := by
  rw [dramRead_append, if_neg]
  intro hl
  obtain ⟨x, hx, e⟩ := List.any_eq_true.mp hl
  exact h x hx (by simpa using e)

/-- Leaving out other addresses does not matter to a reading. -/
theorem dramRead_filter {m : List Host.Cell} {a : Nat} {p : Host.Cell → Bool} (h : ∀ x, x.1 = a → p x = true) :
    dramRead (m.filter p) a = dramRead m a := by
  induction m with
  | nil => rfl
  | cons x m ih =>
    by_cases hx : x.1 = a
    · simp [dramRead, h x hx, hx]
    · by_cases hp : p x = true
      · simpa [dramRead, hp, hx] using ih
      · simpa [dramRead, hp, hx] using ih

/-- The bytes of a block read as stored. -/
theorem dramRead_blockCells (base : Nat) (bytes : List Byte) {i : Nat} (h : i < bytes.length) :
    dramRead (blockCells base bytes) (base + i) = bytes[i] := by
  induction bytes generalizing base i with
  | nil => simp at h
  | cons b bs ih =>
    cases i with
    | zero =>
      unfold blockCells
      split
      · next hb =>
        rw [dramRead_of_forall_ne]
        · simp [hb]
        · intro x hx
          have := (mem_blockCells hx).1
          omega
      · simp [dramRead]
    | succ i =>
      have hi : i < bs.length := by simpa using h
      have e : base + (i + 1) = base + 1 + i := by omega
      unfold blockCells
      split
      · rw [e, ih (base + 1) hi]; simp
      · rw [e]
        have hne : base ≠ base + 1 + i := by omega
        have e2 : (base == base + 1 + i) = false := by simpa using hne
        have := ih (base + 1) hi
        simp only [dramRead, List.find?_cons, List.getElem_cons_succ, e2] at this ⊢
        exact this

/-- Outside the bytes stored, every address reads as before. -/
theorem dramRead_dramWrite_outside {m : List Host.Cell} {base : Nat} {bytes : List Byte} {a : Nat}
    (h : a < base ∨ base + bytes.length ≤ a) : dramRead (dramWrite m base bytes) a = dramRead m a := by
  unfold dramWrite
  have hb : ∀ x ∈ blockCells base bytes, x.1 ≠ a := fun x hx e => by
    have := mem_blockCells hx
    omega
  rcases h with h | h
  · rw [dramRead_append_left, dramRead_append_left hb, dramRead_filter]
    · intro x e; simp [e, h]
    · intro x hx e
      have : base + bytes.length ≤ x.1 := by simpa using (List.mem_filter.mp hx).2
      omega
  · rw [dramRead_append_right, dramRead_filter]
    · intro x e; simp [e, h]
    · intro x hx
      rcases List.mem_append.mp hx with hx | hx
      · have : x.1 < base := by simpa using (List.mem_filter.mp hx).2
        omega
      · exact hb x hx

/-- Inside the bytes stored, an address reads as stored. -/
theorem dramRead_dramWrite_inside {m : List Host.Cell} {base : Nat} {bytes : List Byte} {i : Nat}
    (h : i < bytes.length) : dramRead (dramWrite m base bytes) (base + i) = bytes[i] := by
  unfold dramWrite
  rw [dramRead_append_left, dramRead_append_right, dramRead_blockCells base bytes h]
  · intro x hx e
    have : x.1 < base := by simpa using (List.mem_filter.mp hx).2
    omega
  · intro x hx e
    have : base + bytes.length ≤ x.1 := by simpa using (List.mem_filter.mp hx).2
    omega

/-- A block is read byte by byte. -/
theorem getElem_dramBlock (m : List Host.Cell) (base n : Nat) {i : Nat} (h : i < n) :
    (dramBlock m base n)[i]'(by simpa [dramBlock] using h) = dramRead m (base + i) := by
  simp only [dramBlock, List.getElem_map, List.getElem_range]
  exact dramRead_filter (fun x e => by simp [e, h])

/-- A block of the bytes just stored reads as stored. -/
theorem dramBlock_dramWrite (m : List Host.Cell) (base : Nat) (bytes : List Byte) :
    dramBlock (dramWrite m base bytes) base bytes.length = bytes := by
  refine List.ext_getElem (by simp [dramBlock]) fun i h1 h2 => ?_
  rw [getElem_dramBlock _ _ _ h2, dramRead_dramWrite_inside h2]

/-! ### Operations of the part -/

/-- A line written keeps the canonical form. -/
theorem writeLine_wf {s : State} (h : Memory.wf s.dram) (c : Chan) (slot : Fin 8) (k : Nat) (words : List Nat) :
    Memory.wf (writeLine c slot k words s).dram :=
  dramWrite_wf h _ _

/-- A word of a burst cut short keeps the canonical form. -/
theorem cutWordAt_wf {s : State} (h : Memory.wf s.dram) (c : Chan) (slot : Fin 8) (k : Nat) (words : List Nat)
    (draw w : Nat) : Memory.wf (cutWordAt c slot k words draw s w).dram := by
  unfold cutWordAt
  dsimp only
  split
  · exact h
  · exact dramWrite_wf h _ _
  · exact dramWrite_wf h _ _

/-- A burst cut short keeps the canonical form. -/
theorem cutBurst_wf {s : State} (h : Memory.wf s.dram) : Memory.wf (cutBurst s).dram := by
  unfold cutBurst
  split
  · show Memory.wf ((List.range 240).foldl (cutWordAt _ _ _ _ s.draws) s).dram
    generalize List.range 240 = l
    have : ∀ t : State, Memory.wf t.dram → ∀ draw c slot k words,
        Memory.wf (l.foldl (cutWordAt c slot k words draw) t).dram := by
      induction l with
      | nil => exact fun t ht _ _ _ _ _ => ht
      | cons w l ih => exact fun t ht _ _ _ _ _ => ih _ (cutWordAt_wf ht _ _ _ _ _ _) _ _ _ _ _
    exact this s h _ _ _ _ _
  · exact h

/-- The contents found at power-on are in canonical form. -/
theorem foundBytes_wf (found : List Host.Cell) : Memory.wf (foundBytes found) := by
  have : ∀ m, Memory.wf m →
      Memory.wf (found.foldl (fun m x => if x.1 < dramSize then dramWrite m x.1 [x.2] else m) m) := by
    induction found with
    | nil => exact fun m h => h
    | cons x l ih =>
      intro m h
      refine ih _ ?_
      dsimp only
      split
      · exact dramWrite_wf h _ _
      · exact h
  exact this [] memory_wf_nil

/-- Strikes reach the errors stored, not the data. -/
@[simp] theorem strikeLine_dram (c : Chan) (slot : Fin 8) (k : Nat) (l : List Strike) (s : State) :
    (strikeLine c slot k l s).dram = s.dram := rfl

end Sys2Proof.Machine
end

