-- ==== Sys2Proof/Laws/Directives.lean ====
section
/-! SUPPORT. The taking of a directive, said once: what the rows of the directives come down to. -/

namespace Sys2Proof.Machine

open Sys2Proof

/-- Free places do not depend on the directive queue. -/
@[simp] theorem freePlaces_leaveQueue (s : State) (c : Chan) (rest : List Directive) :
    (s.modCh c (leaveQueue rest)).freePlaces c = s.freePlaces c := by
  unfold State.freePlaces State.reserved
  rw [State.ch_modCh_same]
  rfl

/-- A directive at the head that a place is free for is carried out by the row of its kind. -/
theorem takeKind_takeable {c : Chan} {kind n : Nat} {d : Directive} {rest : List Directive} {s : State}
    (h : Takeable c kind n d rest s) {k : Option DirKind} (hk : dirKind? d.kind = k) :
    takeKind c k s = carryOut c (s.startNo + 1) d (s.modCh c (leaveQueue rest)) := by
  obtain ⟨hq, -, -, ht, hp⟩ := h
  unfold takeKind
  rw [hq]
  dsimp only
  rw [if_pos hk]
  unfold takeNext
  rw [hq]
  dsimp only
  rw [if_neg (by omega), if_pos (Or.inr hp)]

/-- A known directive with all its arguments is carried out by its own operation. -/
theorem carryOut_known {c : Chan} {n : Nat} {d : Directive} {s : State} {k : DirKind}
    (hk : dirKind? d.kind = some k) (hn : argBytes k ≤ d.payload.length) :
    carryOut c n d s = carryOutKind k c n d s := by
  unfold carryOut
  rw [hk]
  dsimp only
  rw [if_neg (by omega)]

/-- A short payload is refused before the directive's own rule (R160). -/
theorem carryOut_short {c : Chan} {n : Nat} {d : Directive} {s : State} {k : DirKind}
    (hk : dirKind? d.kind = some k) (hn : d.payload.length < argBytes k) :
    carryOut c n d s = answerRefused c d .badArgument [] s := by
  unfold carryOut
  rw [hk]
  dsimp only
  rw [if_pos hn]

/-- An unknown kind is refused (R160). -/
theorem carryOut_unknown {c : Chan} {n : Nat} {d : Directive} {s : State} (hk : dirKind? d.kind = none) :
    carryOut c n d s = answerRefused c d .unknownKind [] s := by
  unfold carryOut
  rw [hk]

/-- A known directive, taken by the row of its kind. -/
theorem takeKind_known {c : Chan} {kind n : Nat} {d : Directive} {rest : List Directive} {s : State}
    (h : Takeable c kind n d rest s) {k : DirKind} (hk : dirKind? d.kind = some k)
    (hn : argBytes k ≤ d.payload.length) :
    takeKind c (some k) s = carryOutKind k c (s.startNo + 1) d (s.modCh c (leaveQueue rest)) := by
  rw [takeKind_takeable h hk, carryOut_known hk hn]

/-- With no directive waiting, none is taken. -/
theorem takeKind_empty {c : Chan} {s : State} (h : (s.ch c).pku.dirQueue = []) (k : Option DirKind) :
    takeKind c k s = s := by
  unfold takeKind; rw [h]

/-- A directive of another kind at the head is not taken by the row. -/
theorem takeKind_other {c : Chan} {d : Directive} {rest : List Directive} {s : State}
    (h : (s.ch c).pku.dirQueue = d :: rest) {k : Option DirKind} (hk : dirKind? d.kind ≠ k) : takeKind c k s = s := by
  unfold takeKind; rw [h]; dsimp only; rw [if_neg hk]

/-- An answer after the head was taken, on a channel where nothing else differs. -/
theorem answer_leaveQueue (c : Chan) (rest : List Directive) (d : Directive) (code : AnswerCode)
    (r : Option Reason) (l : List Byte) (s : State) :
    answer c d.tag d.kind code r l (s.modCh c (leaveQueue rest)) = answeredState c rest d code r l s := by
  simp [answer, answeredState, State.modCh, leaveQueue, withTaken, withReport, pushReport]

end Sys2Proof.Machine
end

