-- ==== Sys2Proof/Laws/Engine.lean ====
section
/-! SUPPORT. What the arbiter, the engine's run and the assembly line can do, said once each. -/

namespace Sys2Proof.Machine

open Sys2Proof

/-! ### Rows of samples -/

/-- A sample of a component given by position. -/
theorem getD_tabulate {n i : Nat} (f : Nat → Nat) (h : i < n) : (tabulate n f).getD i 0 = f i := by
  simp [tabulate, h, Array.getD_eq_getD_getElem?]

@[simp] theorem size_tabulate (n : Nat) (f : Nat → Nat) : (tabulate n f).size = n := by simp [tabulate]

/-! ### The arbiter -/

@[simp] theorem freeArbiter_ch (s : State) (c : Chan) : (freeArbiter s).ch c = s.ch c := rfl

@[simp] theorem freeArbiter_burst (s : State) : (freeArbiter s).arbiter.burst = none := rfl

@[simp] theorem freeArbiter_probe (s : State) : (freeArbiter s).probe = s.probe := rfl

/-- A grant, or none: all that the arbiter can do. -/
theorem arbitrate_cases (s : State) :
    arbitrate s = s ∨
    (∃ c slot l, s.arbiter.burst = none ∧ nextWriter s = some (c, slot, l) ∧
      arbitrate s = { s.modCh c grantWriteTo with
        arbiter := { s.arbiter with burst := some (.write c slot l.line l.words), lastWrite := c } }) ∨
    ∃ c src role k, s.arbiter.burst = none ∧ nextWriter s = none ∧ nextReader s = some (c, src, role, k) ∧
      arbitrate s = { s.modCh c grantReadTo with
        arbiter := { s.arbiter with burst := some (.read c src.slot k role src.num true true), lastRead := c } } := by
  unfold arbitrate
  split
  · exact .inl rfl
  · split
    · exact .inr (.inl ⟨_, _, _, ‹_›, ‹_›, rfl⟩)
    · split
      · exact .inr (.inr ⟨_, _, _, _, ‹_›, ‹_›, ‹_›, rfl⟩)
      · exact .inl rfl

/-! ### The engine's run -/

/-- A turn is a skip of a line that is not read, or a read raised while none of the channel is in flight (R50, R85). -/
theorem nextTurn_cases {busy : Bool} {ring : List FieldRecord} {f g : Frame} (h : nextTurn busy ring f = some g) :
    f.read = .idle ∧ f.turn < 3 * f.height ∧
    ((g = skipTurn f ∧ lineNeeded ring f (turnRole f.turn) (turnLine f.turn) = false) ∨
      (g = { f with read := .pending } ∧ busy = false ∧
        lineNeeded ring f (turnRole f.turn) (turnLine f.turn) = true)) := by
  unfold nextTurn at h
  split at h
  · next hc =>
    refine ⟨hc.1, hc.2.1, ?_⟩
    split at h
    · next hn =>
      cases busy
      · exact .inr ⟨(Option.some.inj h).symm, rfl, hn⟩
      · cases h
    · next hn => exact .inl ⟨(Option.some.inj h).symm, Bool.eq_false_iff.2 hn⟩
  · cases h

/-- A row built: its own channel's engine has it, and the probe may have looked at it. -/
theorem buildNext_cases {c : Chan} {s t : State} (h : buildNext c s = some t) :
    ∃ f sc r b, (s.ch c).engine = some f ∧ (s.ch c).scaler = some sc ∧
      r = rowAt f.centre.parity f.height f.rowsBuilt ∧ frameFinished f = false ∧ f.delivered = true ∧
      f.cache.length < cacheLimit ∧ rowReady f r = true ∧ b = buildRow f r (probeColumn s.probe) ∧
      t = probeRow c f r b (s.modCh c (fun ch => { ch with engine := some (afterBuild sc r b f) })) := by
  unfold buildNext at h
  split at h
  · next f sc hf hsc =>
    dsimp only at h
    split at h
    · next hc => exact ⟨f, sc, _, _, hf, hsc, rfl, hc.1, hc.2.1, hc.2.2.1, hc.2.2.2, rfl, (Option.some.inj h).symm⟩
    · cases h
  · cases h

/-- A turn taken changes the engine of its own channel alone. -/
theorem turnNext_cases {c : Chan} {s t : State} (h : turnNext c s = some t) :
    ∃ f g, (s.ch c).engine = some f ∧ nextTurn (readInFlight c s.arbiter.burst) (s.ch c).ring f = some g ∧
      t = s.modCh c (fun ch => { ch with engine := some g }) := by
  unfold turnNext at h
  split at h
  · next f hf =>
    obtain ⟨g, hg, rfl⟩ := Option.map_eq_some_iff.1 h
    exact ⟨f, g, hf, hg, rfl⟩
  · cases h

/-- What a row built and a turn taken keep, the engine's run keeps. -/
theorem runEngine_keeps {P : State → Prop} {c : Chan} (hb : ∀ s t, P s → buildNext c s = some t → P t)
    (ht : ∀ s t, P s → turnNext c s = some t → P t) (fuel : Nat) {s : State} (h : P s) : P (runEngine c fuel s) := by
  induction fuel generalizing s with
  | zero => exact h
  | succ fuel ih =>
    unfold runEngine
    split
    · exact ih (hb _ _ h ‹_›)
    · split
      · exact ih (ht _ _ h ‹_›)
      · exact h

/-- What a row built, a turn taken and a grant keep, the engine's run with the arbiter keeps. -/
theorem pumpEngine_keeps {P : State → Prop} {c : Chan} (hb : ∀ s t, P s → buildNext c s = some t → P t)
    (ht : ∀ s t, P s → turnNext c s = some t → P t) (ha : ∀ s, P s → P (arbitrate s)) {s : State} (h : P s) :
    P (pumpEngine c s) :=
  ha _ (runEngine_keeps hb ht _ h)

/-! ### The read plan -/

/-- A source of the opposite parity (R85). -/
theorem oppositeSource_iff (f : Frame) (role : Role) : oppositeSource f role = true ↔ OppositeParity f role := by
  unfold oppositeSource OppositeParity
  cases frameSource f role with
  | none => simp
  | some q => simp; cases q.parity <;> cases f.centre.parity <;> simp [opposite]

/-- Two neighbours of the centre's parity (R85). -/
theorem bothSameParity_iff (f : Frame) : bothSameParity f = true ↔ BothOfCentreParity f := by
  unfold bothSameParity BothOfCentreParity
  cases f.pred <;> cases f.succ <;> simp

/-- A line of the centre treated as listed (R86). -/
theorem centreListed_iff (f : Frame) (k : Nat) : centreListed f k = true ↔
    (f.lines.find? (fun x => decide (x.role = .centre) && x.line == k)).map Fetched.row = some none := by
  unfold centreListed fetchedLine
  cases (f.lines.find? (fun x => decide (x.role = .centre) && x.line == k)).map Fetched.row with
  | none => simp
  | some o => cases o <;> simp

/-- The tests of R85. -/
theorem lineNeeded_iff (ring : List FieldRecord) (f : Frame) (role : Role) (k : Nat) :
    lineNeeded ring f role k = true ↔ ReadAtItsTurn ring f role k := by
  unfold lineNeeded ReadAtItsTurn
  cases hs : frameSource f role with
  | none => simp [sourceLists, hs]
  | some q =>
    have hl : sourceLists ring f role k = true ↔
        ∃ r, findRecord ring q.num = some r ∧ ∃ d ∈ r.dropouts, d.line = k := by
      unfold sourceLists; rw [hs]; simp only
      cases findRecord ring q.num <;> simp [isListed]
    simp only [Bool.and_eq_true, Option.some.injEq, exists_eq_left', ← bothSameParity_iff, ← centreListed_iff]
    rw [← hl, Bool.not_eq_true']
    refine and_congr (by simp) ?_
    cases role with
    | centre => simp
    | pred => simp [oppositeSource_iff, OppositeParity, hs]
    | succ => simp [oppositeSource_iff, OppositeParity, hs]

/-! ### A frame left (R88, R89, R99) -/

/-- A read in flight of a frame that ends (R52, R88). -/
theorem orphanRead_eq (c : Chan) (b : Option Burst) : orphanRead c b = ReadOrphaned c false true b := by
  rcases b with _ | ⟨_, _, _, _⟩ | ⟨e, _, _, _, _, _, _⟩
  · rfl
  · rfl
  · unfold orphanRead ReadOrphaned
    by_cases h : e = c <;> simp [h]

/-- The count of a frame that ends (R99). -/
theorem publishFallback_eq (f : Frame) (x : Stats) : publishFallback f x = PublishedBy f x := by
  unfold publishFallback PublishedBy; split <;> simp_all

/-- With no frame there is none to leave. -/
theorem leaveFrame_none {c : Chan} {s : State} (h : (s.ch c).engine = none) : leaveFrame c s = s := by
  unfold leaveFrame; rw [h]

/-- All that leaving a frame does (R88, R89, R99). -/
theorem leaveFrame_some {c : Chan} {s : State} {f : Frame} (h : (s.ch c).engine = some f) :
    leaveFrame c s = { s.setCh c { s.ch c with engine := none, stats := PublishedBy f (s.ch c).stats } with
      arbiter := { s.arbiter with burst := ReadOrphaned c false true s.arbiter.burst } } := by
  unfold leaveFrame; rw [h]; simp [orphanRead_eq, publishFallback_eq, State.modCh_eq]

/-! ### Lines -/

/-- An entry of a list given by position. -/
theorem getElem?_map_range {α : Type} {n i : Nat} (f : Nat → α) (h : i < n) : ((List.range n).map f)[i]? = some (f i) := by
  rw [List.getElem?_map, List.getElem?_range h, Option.map_some]

/-- The clamp of a line's word, by its place (R3). -/
theorem legalWord_eq (i w : Nat) : legalWord i w = max 64 (min (if i % 2 = 1 then 940 else 960) w) := by
  unfold legalWord isLumaWord legalLuma legalChroma clampNat
  by_cases h : i % 2 = 1 <;> simp only [h, beq_self_eq_true, beq_iff_eq, if_true, if_false] <;> (split <;> [omega; (split <;> omega)])

/-- Black at a line's word, by its place (R18). -/
theorem blackWord_eq (i : Nat) : blackWord i = if i % 2 = 1 then 64 else 512 := by
  unfold blackWord isLumaWord
  by_cases h : i % 2 = 1 <;> simp [h]

/-- The assembly line of `line` at its end holds what R11 and R18 say. -/
theorem assembled_assembleLine (std : Standard) (line : LineIn) : Assembled std line (assembleLine std line) := by
  refine ⟨(List.length_map _).trans List.length_range, fun i hi => (getElem?_map_range _ hi).trans (congrArg some ?_)⟩
  unfold activeWordCount activeWord
  generalize line.words[2 * (lineLength std - 720) + i]? = o
  cases o <;> simp only [legalWord_eq, blackWord_eq]

/-- The words handed on of a window line are the only list that R11 and R23 describe. -/
theorem windowWords_eq {std : Standard} {line : LineIn} {ws : List LineWord} (h : WindowPart std line ws) :
    windowWords std line = ws := by
  have e : (windowWords std line).length = ws.length := ((List.length_map _).trans List.length_range).trans h.1.symm
  refine List.ext_getElem? fun i => ?_
  by_cases hi : i < ws.length
  · have hc : i < activeWordCount std line.periods := Nat.lt_of_lt_of_eq hi h.1
    rw [h.2 i hi]
    refine (getElem?_map_range _ hc).trans (congrArg some ?_)
    rw [blackWord_eq]
    by_cases h : i % 2 = 1 <;> simp only [h, if_true, if_false] <;> rfl
  · rw [List.getElem?_eq_none (Nat.le_of_not_lt hi), List.getElem?_eq_none (Nat.le_trans (Nat.le_of_eq e) (Nat.le_of_not_lt hi))]

/-- An active line received, judged and offered leaves the assembly line empty. -/
@[simp] theorem emptyAssembly_assembly (ch : Channel) : (emptyAssembly ch).recv.assembly = [] := rfl

end Sys2Proof.Machine
end

