-- ==== Sys2Proof/Laws/Reports.lean ====
section
/-! SUPPORT. Raising, answering, delivering and relaying: each changes its own channel alone, and of that channel
its Report Unit's part (a relay also the count of relays discarded). -/

namespace Sys2Proof.Machine

open Sys2Proof

variable (c : Chan) (s : State)

/-- Writing a channel back as it was changes nothing. -/
theorem State.setCh_ch : s.setCh c (s.ch c) = s := by
  unfold State.setCh State.ch
  rw [quadSet_quadGet]

/-! ### An event -/

theorem raise_eq_setCh (k : EventKind) (n : Nat) :
    raise c k n s = s.setCh c { s.ch c with rep := ((raise c k n s).ch c).rep } := by
  unfold raise
  split <;> simp [State.modCh_eq, pushReport]

@[simp] theorem raise_ch_ne {d : Chan} (h : d ≠ c) (k : EventKind) (n : Nat) : (raise c k n s).ch d = s.ch d := by
  rw [raise_eq_setCh, State.ch_setCh_ne _ h]

theorem raise_ch_same (k : EventKind) (n : Nat) :
    (raise c k n s).ch c = { s.ch c with rep := ((raise c k n s).ch c).rep } := by
  conv_lhs => rw [raise_eq_setCh]
  rw [State.ch_setCh_same]

/-! ### The held status -/

theorem deliverHeld_eq_setCh (places : Nat) :
    deliverHeld c places s = s.setCh c { s.ch c with rep := ((deliverHeld c places s).ch c).rep } := by
  by_cases h : unmaskedKinds (s.ch c).rep.held (s.ch c).rep.mask ≠ 0 ∧ s.eventRoom c places = true
  · simp only [deliverHeld, if_pos h, State.modCh_eq, pushReport, State.ch_setCh_same]
  · simp only [deliverHeld, if_neg h]
    exact (State.setCh_ch c s).symm

@[simp] theorem deliverHeld_ch_ne {d : Chan} (h : d ≠ c) (places : Nat) : (deliverHeld c places s).ch d = s.ch d := by
  rw [deliverHeld_eq_setCh, State.ch_setCh_ne _ h]

/-! ### Answers and relays -/

theorem answer_eq_setCh (tag kind : Byte) (code : AnswerCode) (r : Option Reason) (data : List Byte) :
    answer c tag kind code r data s = s.setCh c (pushReport (.answer tag kind code r data) (s.ch c)) := rfl

@[simp] theorem answer_ch_ne {d : Chan} (h : d ≠ c) (tag kind : Byte) (code : AnswerCode) (r : Option Reason)
    (data : List Byte) : (answer c tag kind code r data s).ch d = s.ch d := by
  rw [answer_eq_setCh, State.ch_setCh_ne _ h]

@[simp] theorem offerRelay_ch_ne {d : Chan} (h : d ≠ c) (bytes : List Byte) : (offerRelay c bytes s).ch d = s.ch d := by
  unfold offerRelay
  split <;> simp [h]

/-! ### Requests of the arbiter -/

/-- A busy arbiter grants nothing. -/
theorem arbitrate_busy {b : Burst} (h : s.arbiter.burst = some b) : arbitrate s = s := by
  unfold arbitrate; rw [h]

end Sys2Proof.Machine
end

