-- ==== Sys2Proof/Laws/Scaler.lean ====
section
/-! SUPPORT. The Scaler's arithmetic against the rules' own: positions, phases, taps, coefficients, the filter, the rows
still needed, and the output line around a window. -/

namespace Sys2Proof.Machine

open Sys2Proof

/-- A coefficient is its two bytes, read as a signed number (R144). -/
theorem coefOf_eq (image : List Byte) (ph n : Nat) : coefOf image ph n = CoefAt image ph n := by
  unfold coefOf coefValue signed16 CoefAt byteAt
  have e : 2 * (4 * ph + n) = 8 * ph + 2 * n := by omega
  rw [e]; dsimp only
  split <;> split <;> omega

/-- The phase of a position (R107). -/
theorem positionPhase_eq (src dst k : Nat) : positionPhase (sourcePosition src dst k) = PhaseAt src dst k := by
  unfold positionPhase positionInt PhaseAt
  have e : sourcePosition src dst k = PositionAt src dst k := rfl
  rw [e]; congr 2; omega

/-- A clamped tap (R108). -/
theorem clampTap_eq (src : Nat) (t : Int) : clampTap src t = (max 0 (min ((src : Int) - 1) t)).toNat := by
  unfold clampTap; split <;> omega

/-- The four taps of a destination position (R108). -/
theorem passTaps_eq (src dst k : Nat) :
    passTaps src dst k = (TapAt src dst k 0, TapAt src dst k 1, TapAt src dst k 2, TapAt src dst k 3) := by
  have e : sourcePosition src dst k = PositionAt src dst k := rfl
  unfold passTaps TapAt positionInt
  simp only [clampTap_eq, e]
  refine Prod.ext ?_ (Prod.ext ?_ (Prod.ext ?_ ?_)) <;> simp <;> congr 3 <;> omega

/-- The filter of a luma position over its samples (R109). -/
theorem filterLuma_eq (image : List Byte) (ph : Nat) (s : Nat → Nat) :
    filterLuma (coefOf image ph 0) (coefOf image ph 1) (coefOf image ph 2) (coefOf image ph 3) (s 0) (s 1) (s 2) (s 3) =
      FilterAt 940 image ph s := by
  simp only [coefOf_eq]
  unfold filterLuma filterValue clampSigned clampNat FilterAt
  split <;> (try split) <;> omega

/-- The filter of a chroma position over its samples (R109). -/
theorem filterChroma_eq (image : List Byte) (ph : Nat) (s : Nat → Nat) :
    filterChroma (coefOf image ph 0) (coefOf image ph 1) (coefOf image ph 2) (coefOf image ph 3) (s 0) (s 1) (s 2) (s 3) =
      FilterAt 960 image ph s := by
  simp only [coefOf_eq]
  unfold filterChroma filterValue clampSigned clampNat FilterAt
  split <;> (try split) <;> omega

/-- The lowest row still needed stands in the band or behind it (R108, R111). -/
theorem bandFirst_le_lowestRow (x : ScalerFrame) (y : Nat) : x.bandFirst ≤ LowestRow x y := by
  unfold LowestRow; split <;> omega

/-- Which built rows await release (R87, R111). -/
theorem rowAwaited_eq (x : ScalerFrame) (r : Nat) : rowAwaited x r =
    (decide (LowestRow x x.nextLine ≤ r) && decide (r < x.bandFirst + x.bandCount)) := by
  have e : lowestNeeded x = LowestRow x x.nextLine := by
    unfold lowestNeeded LowestRow verticalRows; simp only [passTaps_eq]
  have h := bandFirst_le_lowestRow x x.nextLine
  unfold rowAwaited
  rw [e, Bool.eq_iff_iff]; simp; omega

/-- The output line around a window (R8, R113). -/
theorem windowLine_around (r : Raster) (a : Aspect) (fill : Colour) (w : Row) :
    LineAround (rasterWidth r) (activeWindow a r).1 (activeWindow a r).2 fill w (windowLine r a fill w) := by
  unfold LineAround windowLine
  refine ⟨by simp [placeInWindow], by simp [placeInWindow], by simp [placeInWindow], fun i hi => ?_, fun j hj => ⟨?_, ?_⟩⟩
  all_goals exact getD_tabulate _ (by assumption)

end Sys2Proof.Machine
end

