-- ==== Sys2Proof/WellFormed.lean ====
section
/-! DEFINITION. Which commands are well formed: what their operand types alone do not say. -/

namespace Sys2Proof

/-- R54: syndrome 0 is no error and only that; a clean or double word is delivered as read. -/
def WordError.wellFormed (e : WordError) : Bool :=
  match e.cls with
  | .clean  => e.syndrome == 0 && e.fix.isNone
  | .single => e.syndrome != 0
  | .double => e.syndrome != 0 && e.fix.isNone

/-- A line brings at most two words a sample period (R2). -/
def LineIn.wellFormed (l : LineIn) : Bool :=
  decide (l.words.length ≤ 2 * l.periods)

/-- No word of a line is struck twice in one list. -/
def strikesWellFormed (l : List Strike) : Bool :=
  l.all (fun x => x.err.wellFormed) && decide ((l.map Strike.word).Nodup)

/-- A burst reads 240 words (R52), and no fewer have been read at a later SET DEVICE OPTIONS than at an earlier one. -/
def readCountsWellFormed (read : List Nat) : Bool :=
  read.all (fun n => decide (n ≤ 240)) && decide (read.Pairwise (· ≤ ·))

/-- Contents found in the DRAM lie within its 64 MiB (R48); errors found lie on protected words. -/
def foundWellFormed (found : List Host.Cell) (errs : List (Nat × WordError)) : Bool :=
  found.all (fun x => decide (x.1 < 67108864)) &&
  errs.all (fun x => decide (x.1 < 67108864) && x.1 % 8 == 0 && x.2.wellFormed)

/-- The order operand names each piece of work at most once, and a channel's taking at most twice (R159). -/
def orderWellFormed (order : List StartWork) : Bool :=
  order.all (fun w => match w with
    | .packet _ => decide (order.count w ≤ 2)
    | _         => decide (order.count w ≤ 1))

/-- The well-formed commands. -/
def Instr.wellFormed : Instr → Bool
  | .powerOnReset _ found errs  => foundWellFormed found errs
  | .timingWord _ _ _ line      => line.wellFormed
  | .readBurstComplete line     => strikesWellFormed line.strikes && readCountsWellFormed line.read
  | .referencePulse _ _ order   => orderWellFormed order
  | .refLossTimeout order       => orderWellFormed order
  | .freeRunExpiry order        => orderWellFormed order
  | .pinReset _ => true
  | .restartDevice _ => true
  | .probe _ => true
  | .setFormat _ => true
  | .setParameters _ => true
  | .start _ => true
  | .halt _ => true
  | .resetChannel _ => true
  | .readStats _ => true
  | .loadBegin _ => true
  | .loadSegment _ => true
  | .loadCommit _ => true
  | .loadAbort _ => true
  | .readTable _ => true
  | .deviceStatus _ => true
  | .clearErrors _ => true
  | .setDeviceOptions _ => true
  | .armProbe _ => true
  | .readProbe _ => true
  | .unknownKind _ => true
  | .controlPacket _ => true
  | .writeBurstComplete => true
  | .inputLoss _ => true
  | .loadAbandoned => true
  | .tableSwap => true
  | .haltComplete _ => true
  | .outputLinePeriod _ => true

end Sys2Proof
end

