-- ==== Sys2Proof/Tests/Slice0.lean ====
section
/-! SUPPORT. Tests: the well-formedness checks, the spec's worked examples, and for each statement with hypotheses a
concrete state and operands that meet them. Expected values are the spec's own or worked by hand from its rules. -/

namespace Sys2Proof.Tests

open Sys2Proof Sys2Proof.Machine

/-! ### Helpers -/

/-- The next state of a command; no command stops. -/
def after (i : Instr) (s : State) : State :=
  match exec i s with
  | .next t    => t
  | .fault _   => s
  | .refused _ => s

/-- A state whose channel `c` has one directive waiting, tag 33. -/
def dirState (c : Chan) (kind : Byte) (payload : List Byte) (s : State) : State :=
  s.modCh c (fun ch => { ch with pku := { ch.pku with dirQueue := [⟨kind, 33, payload⟩] } })

/-- A state whose channel `c` is in a channel state. -/
def inState (c : Chan) (x : ChanState) (s : State) : State :=
  s.modCh c (fun ch => { ch with ctl := { ch.ctl with state := x } })

/-- A state with a window line handed on by channel `c`. -/
def handedState (c : Chan) (ws : List LineWord) (s : State) : State :=
  s.modCh c (fun ch => { ch with pku := { ch.pku with handed := [ws] } })

/-- A state whose receiver of channel `c` is changed. -/
def withRecv (c : Chan) (f : Receiver → Receiver) (s : State) : State := s.modCh c (fun ch => { ch with recv := f ch.recv })

/-- A COMPLETE record with a number, a slot and a decision. -/
def rec (num : Nat) (slot : Fin 8) (d : Decision) : FieldRecord :=
  { newRecord num slot 0 none with state := .complete, parity := some .top, decision := some d }

/-- A state whose channel `c` has a ring and a last output field. -/
def withRing (c : Chan) (ring : List FieldRecord) (last : Option Nat) (s : State) : State :=
  s.modCh c (fun ch => { ch with ring := ring, ctl := { ch.ctl with lastOutput := last, state := .running } })

/-- A state with a burst in flight. -/
def withBurst (b : Burst) (s : State) : State := { s with arbiter := { s.arbiter with burst := some b } }

/-- A BLACK frame of a raster at a line period. -/
def blackFrame (r : Raster) (period : Nat) : ScalerFrame :=
  { kind := .black, raster := r, aspect := .pillar, fill := blackColour, vset := 0, hset := 0, vcoefs := [], hcoefs := [],
    bandFirst := 0, bandCount := 576, nextLine := 0, prevLine := none, period := period, family := .f50,
    abandoned := false, begun := 0 }

/-- A state whose channel `c` has a Scaler frame. -/
def withScaler (c : Chan) (x : ScalerFrame) (s : State) : State := s.modCh c (fun ch => { ch with scaler := some x })

/-- A frame of the engine with nothing read yet. -/
def freshFrame : Frame :=
  { centre := ⟨5, 0, .top⟩, pred := none, succ := none, mode := .video, first := true, curveNo := 0, curve := builtinCurve,
    comb := 24, fallbackLimit := 2000, height := 288, begun := 0, turn := 0, read := .idle, delivered := false, rowsBuilt := 0, lines := [],
    cache := [], fallback := 0 }

/-- A state whose channel 0 builds a frame for an output frame. -/
def inFrame (f : Frame) (x : ScalerFrame) (s : State) : State :=
  (withScaler .c0 x s).modCh .c0 (fun ch => { ch with engine := some f })

/-- A PICTURE frame of the 720 raster with a fill, at a line period. -/
def filledFrame (period : Nat) : ScalerFrame :=
  { blackFrame .r720 period with kind := .picture, fill := ⟨90, 500, 500⟩ }

/-! ### Well-formedness -/

theorem test_wf_clean_with_syndrome : WordError.wellFormed ⟨.clean, 3, 0, none⟩ = false := by decide
theorem test_wf_clean_with_fix : WordError.wellFormed ⟨.clean, 0, 0, some 1⟩ = false := by decide
theorem test_wf_single_without_syndrome : WordError.wellFormed ⟨.single, 0, 1, some 0⟩ = false := by decide
theorem test_wf_double_without_syndrome : WordError.wellFormed ⟨.double, 0, 3, none⟩ = false := by decide
theorem test_wf_double_with_fix : WordError.wellFormed ⟨.double, 9, 3, some 0⟩ = false := by decide
theorem test_wf_line_too_many_words :
    (Instr.timingWord .c0 0 ⟨true, false, .top⟩ ⟨1, [1, 2, 3]⟩).wellFormed = false := by decide
theorem test_wf_strike_ill : (Instr.readBurstComplete ⟨[⟨0, ⟨.single, 0, 1, some 0⟩⟩], []⟩).wellFormed = false := by decide
theorem test_wf_strike_twice :
    (Instr.readBurstComplete ⟨[⟨4, ⟨.double, 9, 3, none⟩⟩, ⟨4, ⟨.double, 9, 3, none⟩⟩], []⟩).wellFormed = false := by decide
theorem test_wf_read_beyond : (Instr.readBurstComplete ⟨[], [240, 241]⟩).wellFormed = false := by decide
theorem test_wf_read_falling : (Instr.readBurstComplete ⟨[], [7, 6]⟩).wellFormed = false := by decide
theorem test_wf_found_beyond : (Instr.powerOnReset 0 [(67108864, 1)] []).wellFormed = false := by decide
theorem test_wf_errors_beyond :
    (Instr.powerOnReset 0 [] [(67108864, ⟨.double, 9, 3, none⟩)]).wellFormed = false := by decide
theorem test_wf_errors_unaligned : (Instr.powerOnReset 0 [] [(4, ⟨.double, 9, 3, none⟩)]).wellFormed = false := by decide
theorem test_wf_errors_ill : (Instr.powerOnReset 0 [] [(8, ⟨.clean, 9, 3, none⟩)]).wellFormed = false := by decide
theorem test_wf_order_twice : (Instr.freeRunExpiry [.loader, .loader]).wellFormed = false := by decide
theorem test_wf_order_three_takings :
    (Instr.refLossTimeout [.packet .c1, .packet .c1, .packet .c1]).wellFormed = false := by decide
theorem test_wf_accepts : (Instr.referencePulse 7 .f50 [.packet .c1, .loader, .packet .c1]).wellFormed = true := by decide

/-! ### Worked examples of the spec -/

/-- 10.1, worked packet: LOAD BEGIN for coefficient entry 2 to device 5 with tag 33. -/
theorem test_worked_packet_formed : packetWords (withChecksum [5, 16, 33, 2, 1, 2]) =
    [0x2AA, 0x155, 0x2AA, 0x105, 0x110, 0x121, 0x102, 0x101, 0x102, 0x1C5] := by decide

/-- The same packet checked and sorted by a device with address 5 (R156, R157). -/
theorem test_worked_packet_queued :
    ((after (.controlPacket .c1) { handedState .c1
      [0x2AA, 0x155, 0x2AA, 0x105, 0x110, 0x121, 0x102, 0x101, 0x102, 0x1C5, 0x040] State.reset with
        deviceAddress := 5 }).ch .c1).pku = ⟨[], [⟨16, 33, [1, 2]⟩], 0⟩ := by decide

/-- R156: the packet cut before its checksum is faulty; CHECKSUM_FAIL joins the queue behind RESTART. -/
theorem test_cut_packet_faulty :
    ((after (.controlPacket .c1) (handedState .c1 [0x2AA, 0x155, 0x2AA, 0x105, 0x110] State.reset)).ch .c1).rep.queue =
      [.event 32768 0 1, .event 128 0 1] := by decide

/-- R157, R172: the packet is relayed by a device with another address. -/
theorem test_foreign_packet_relayed :
    ((after (.controlPacket .c1) (handedState .c1 (packetWords (withChecksum [5, 16, 33, 2, 1, 2])) State.reset)).ch
      .c1).rep.queue = [.event 32768 0 1, .relay [5, 16, 33, 2, 1, 2, 197]] := by decide

/-- 7.5, horizontal, 720 to 1440, columns 0, 3 and 1439: position, phase and taps. -/
theorem test_horizontal_positions : sourcePosition 720 1440 0 = -16384 ∧ sourcePosition 720 1440 3 = 81920 ∧
    positionPhase 81920 = 16 ∧ passTaps 720 1440 3 = (0, 1, 2, 3) ∧ passTaps 720 1440 1439 = (718, 719, 719, 719) := by
  decide

/-- 7.5, vertical, 576 to 1080, lines 0, 5 and 1079. -/
theorem test_vertical_positions : sourcePosition 576 1080 0 = -15292 ∧ positionPhase (-15292) = 49 ∧
    passTaps 576 1080 0 = (0, 0, 0, 1) ∧ passTaps 576 1080 5 = (1, 2, 3, 4) ∧
    passTaps 576 1080 1079 = (574, 575, 575, 575) := by decide

/-- 7.5, vertical, 494 to 1080, line 1079 within the band, and 720 to 1280, column 1. -/
theorem test_crop_positions : sourcePosition 494 1080 1079 = 32326324 ∧ passTaps 494 1080 1079 = (492, 493, 493, 493) ∧
    sourcePosition 720 1280 1 = 22528 ∧ positionPhase 22528 = 22 := by decide

/-- 7.5: 501, the undershoot held at 64, and 504. -/
theorem test_filter_cases : filterLuma (-32) 432 128 (-16) 400 480 560 600 = 501 ∧
    filterLuma (-32) 432 128 (-16) 940 64 64 64 = 64 ∧ filterLuma (-36) 410 160 (-22) 500 500 520 560 = 504 := by decide

/-- 6.6, the worked blend: 321 in luma, 504 in chroma; and the diagonal that gives 550. -/
theorem test_blend_cases : average 350 290 = 320 ∧ blend 16 325 320 = 321 ∧ blend 16 510 502 = 504 ∧
    spatialLuma #[450, 500, 600] #[500, 620, 700] 1 = 550 := by decide

/-- 6.7, the worked fallback: the woven 620 combs against 400 and 410, and curve 0 gives weight 64 at M 210. -/
theorem test_fallback_case : combs 24 620 400 410 = true ∧ combs 24 600 400 610 = false ∧
    motionWeight builtinCurve 210 = 64 ∧ motionWeight builtinCurve 60 = 16 ∧ blend 64 405 515 = 405 := by decide

/-- R144: the built-in set's phase 16 stands at offsets 128 to 135. -/
theorem test_coefficient_image : (builtinCoefs.drop 128).take 8 = [0, 0, 128, 1, 128, 0, 0, 0] := by decide

/-- R143: phase 0 of the 3:2 entry expects NO pair, NO repeat and partner NEXT; phase 2 YES, YES and PREV. -/
theorem test_pattern_image : pairCode builtinPattern32 0 = 1 ∧ repeatCode builtinPattern32 0 = 1 ∧
    phasePartner builtinPattern32 0 = .next ∧ pairCode builtinPattern32 2 = 2 ∧ repeatCode builtinPattern32 2 = 2 ∧
    phasePartner builtinPattern32 2 = .prev := by decide

/-- 9.7: the curve with 30 at entry 9, where entry 8 holds 32, has its fault at offset 9. -/
theorem test_curve_fault : faultOffset (.curve 3)
    [0, 4, 8, 12, 16, 20, 24, 28, 32, 30, 40, 44, 48, 52, 56, 60, 64, 64, 64, 64, 64, 64, 64, 64, 64, 64, 64, 64, 64, 64,
     64, 64] = some 9 := by decide

/-- 9.7: the 2:2:2:4 pattern passes; an unused entry passes; all ANY faults at 1 (R149). -/
theorem test_pattern_validation : faultOffset (.pattern 2) [4, 21, 6, 21, 6, 0, 0, 0, 0, 0, 0] = none ∧
    faultOffset (.pattern 2) [0, 0, 0, 0, 0, 0, 0, 0, 0, 0, 0] = none ∧
    faultOffset (.pattern 2) [2, 15, 31, 0, 0, 0, 0, 0, 0, 0, 0] = some 1 ∧
    faultOffset (.pattern 2) [1, 21, 0, 0, 0, 0, 0, 0, 0, 0, 0] = some 0 ∧
    faultOffset (.pattern 2) [2, 21, 6, 0, 0, 0, 0, 0, 0, 0, 9] = some 10 := by decide

/-- 4.7, two of its grants: rotation after 2 begins at 3, and after 3 at 0. -/
theorem test_rotation : rotation .c2 = [.c3, .c0, .c1, .c2] ∧ rotation .c3 = [.c0, .c1, .c2, .c3] := by decide

/-- 2.13: the drift of 19660 after 19700 is -40. -/
theorem test_drift : driftFrom (some 19700) 19660 = -40 ∧ driftFrom none 19660 = 0 := by decide

/-- R16: the four rows of the vote's table. -/
theorem test_vote : decideParity [.top, .top, .top] none = (.top, .threeOfThree) ∧
    decideParity [.top, .bottom, .top] none = (.top, .twoOfThree) ∧
    decideParity [.bottom, .bottom] (some .bottom) = (.bottom, .twoOfThree) ∧
    decideParity [.top, .bottom] (some .top) = (.bottom, .twoOfThree) ∧ decideParity [.bottom] none = (.top, .twoOfThree) := by
  decide

/-- R16, R11: at the line start of line V the vote closes on the indications before it, and V's own word does not vote. -/
theorem test_vote_closes_before_line_v :
    let s := withBurst (.write .c1 0 0 []) (withRecv .c0 (fun r =>
      { r with state := .inField, lineNo := 22, voteClosed := false, vote := [.top, .top] }) State.reset)
    ((after (.timingWord .c0 1 ⟨true, false, .bottom⟩ ⟨864, []⟩) s).ch .c0).recv.vote = [.top, .top] ∧
    ((after (.timingWord .c0 1 ⟨true, false, .bottom⟩ ⟨864, []⟩) s).ch .c0).recv.prevParity = some .top := by decide +kernel

/-- 2.13: 279 is offered LOST below 280 TIMING, which then becomes LOST (R19, R37). -/
theorem test_dropout_order : (offerDropout [⟨120, .lost⟩, ⟨280, .timing⟩] 279 .lost).bind (fun l => offerDropout l 280 .lost)
    = some [⟨120, .lost⟩, ⟨279, .lost⟩, ⟨280, .lost⟩] := by decide

/-- 8.4, the worked drop: E is 41, 42, 43; 42 is FILM, so d becomes 2 and 43 is taken. -/
theorem test_worked_drop :
    let s := withRing .c0 [rec 39 0 .video, rec 40 1 .video, rec 41 2 (.film .next), rec 42 3 (.film .prev),
      rec 43 4 (.film .next), rec 44 5 (.film .prev), newRecord 45 6 0 none] (some 40) State.reset
    ((schedule .c0 s).1.ch .c0).ctl.lastOutput = some 43 ∧ ((schedule .c0 s).1.ch .c0).stats.fieldsDropped = 2 ∧
    ((schedule .c0 s).1.ch .c0).ring.map (fun r => (r.num, r.pinned)) =
      [(42, true), (43, true), (44, true), (45, false)] := by decide +kernel

/-- 11.10: six reports, four of them events. -/
def damagedTape : State := State.reset.modCh .c3 (fun ch => { ch with rep := { ch.rep with queue :=
  [.answer 1 4 .done none [], .answer 2 4 .done none [], .event 16 1 1, .event 16 2 1, .event 16 3 1, .event 16 4 1] } })

/-- 11.10 up to the discarded relay: 8 reports, three kinds held from field 811 on, one relay discarded. -/
theorem test_folding : let s := offerRelay .c3 [9] (raise .c3 .cadenceLost 816 (offerRelay .c3 [8] (raise .c3 .slipDrop 815
      (raise .c3 .eccSingle 811 (raise .c3 .slipDrop 812 damagedTape)))))
    (s.ch .c3).rep.queue.length = 8 ∧ (s.ch .c3).rep.held = ⟨512 + 16 + 8, 811, 3⟩ ∧
    (s.ch .c3).stats.relaysDiscarded = 1 := by decide

/-- 11.10, insertion and delivery: SLIP_DROP and CADENCE_LOST leave with count 3, ECC_SINGLE stays with count 1. -/
theorem test_folding_delivered : let s := reportWork .c3 (offerRelay .c3 [9] (raise .c3 .cadenceLost 816
      (offerRelay .c3 [8] (raise .c3 .slipDrop 815 (raise .c3 .eccSingle 811 (raise .c3 .slipDrop 812 damagedTape))))))
    (s.ch .c3).rep.queue.getLast? = some (.event 24 811 3) ∧ (s.ch .c3).rep.queue.length = 5 ∧
    (s.ch .c3).rep.held = ⟨512, 811, 1⟩ ∧ (s.ch .c3).rep.window.length = 4 := by decide

/-- R49, R33: word 3 of line place 99 of slot 4 of channel 1. -/
theorem test_word_address : wordAddress .c1 4 99 3 = 12 * 1048576 + 1920 * 99 + 24 := by decide

/-- R87: the build order of a TOP centre of two line places starts 0, 2, 1, 3, that of a BOTTOM one 1, 0, 3, 2. -/
theorem test_build_order : (List.range 4).map (rowAt .top 2) = [0, 2, 1, 3] ∧
    (List.range 4).map (rowAt .bottom 2) = [1, 0, 3, 2] := by decide

/-- R4: 5 is newer than 2^32 - 1, and 2^31 - 1 apart is the most that is newer. -/
theorem test_newer : newer 5 4294967295 = true ∧ newer 7 7 = false ∧ newer 2147483647 0 = true ∧
    newer 2147483648 0 = false := by decide

/-- R122, R118: the first pulse after power-on locks the RTU and raises REF_LOCKED behind RESTART. -/
theorem test_first_pulse : (after (.referencePulse 5 .f5994 [.report .c0]) State.reset).rtu.state = .locked5994 ∧
    ((after (.referencePulse 5 .f5994 [.announce]) State.reset).ch .c2).rep.window.length = 2 := by decide +kernel

/-- R85: with both neighbours of the centre's parity, a line whose centre line was used as delivered is not read; one
whose centre line is listed is. -/
theorem test_same_parity_reads :
    let f := { freshFrame with pred := some ⟨4, 1, .top⟩, succ := some ⟨6, 2, .top⟩, turn := 862, rowsBuilt := 576 }
    lineNeeded [] f .pred 287 = false ∧ lineNeeded [] { f with lines := [⟨.centre, 287, none⟩] } .pred 287 = true := by
  decide

/-- R50: while a read of the channel is in flight the engine raises none; with none in flight it does. -/
theorem test_one_read_at_a_time : nextTurn (readInFlight .c1 (some (.read .c1 5 60 .centre 733 false false))) [] freshFrame = none ∧
    (nextTurn (readInFlight .c1 (some (.read .c2 5 60 .centre 733 false false))) [] freshFrame).map Frame.read =
      some .pending := by decide +kernel

/-- R89, R122: a frame abandoned at its first line period carries black in the window and keeps its fill beside it; its
read in flight is no longer its own and its count is published. -/
theorem test_abandoned_frames :
    let s := withBurst (.read .c0 1 0 .centre 5 true true) (inFrame { freshFrame with fallback := 7 } (filledFrame 0) State.reset)
    ((abandonFrame .c0 s).ch .c0).scaler = some { filledFrame 0 with abandoned := true } ∧
    ((abandonFrame .c0 s).ch .c0).engine = none ∧ ((abandonFrame .c0 s).ch .c0).stats.fallbackLastField = 7 ∧
    (abandonFrame .c0 s).arbiter.burst = some (.read .c0 1 0 .centre 5 false true) := by decide +kernel

/-- R89: after a pin reset an active line of the frame in progress has black in the window and the fill beside it. -/
theorem test_pin_reset_line : ((after (.outputLinePeriod .c0) (after (.pinReset 3) (withScaler .c0
      (filledFrame 26) State.reset))).ch .c0).out.map (fun x => match x with
        | .active row => (row.y.getD 159 0, row.y.getD 160 0, row.cb.getD 79 0, row.cb.getD 80 0)
        | _ => (0, 0, 0, 0)) = some (90, 64, 500, 512) := by decide +kernel

/-- R80, R99: the end of a first reconstruction of a FILM field publishes its count; above the limit a LOCKED tracker goes
to HOLD, at the limit it stays. -/
theorem test_frame_ended :
    let locked := fun n : Nat => (inFrame { freshFrame with mode := .film .prev, fallback := n } (filledFrame 745)
      State.reset).modCh .c0 (fun ch => { ch with cad := { ch.cad with track := .locked 1 3 } })
    ((endFrame .c0 (locked 2001)).ch .c0).cad.track = .hold 1 3 0 ∧ ((endFrame .c0 (locked 2000)).ch .c0).cad.track = .locked 1 3 ∧
    ((endFrame .c0 (locked 2001)).ch .c0).stats.fallbackLastField = 2001 := by decide +kernel

/-- 5.10, fields 1, 2, 3 and 7 of the worked sequence: what a scan finds with the default confirm count of 5. -/
theorem test_scan : trackStep builtinTables defaultField [.p, .unknown] (.search none) = (.search (some ⟨0, 1, 1⟩), .video, none) ∧
    trackStep builtinTables defaultField [.pr, .p, .unknown] (.search (some ⟨0, 1, 1⟩)) = (.search none, .video, none) ∧
    trackStep builtinTables defaultField [.neither, .pr, .p, .unknown] (.search none) =
      (.search (some ⟨0, 0, 1⟩), .video, none) ∧
    trackStep builtinTables defaultField [.pr, .p, .neither, .p, .neither, .pr, .p, .unknown] (.search (some ⟨0, 1, 4⟩)) =
      (.search (some ⟨1, 2, 1⟩), .video, none) := by decide +kernel

/-- R72, R75: two UNKNOWN symbols fit the first entry at its first phase, and a confirm count of 1 locks it at once; R71: one
symbol fits no pattern. -/
theorem test_scan_locks_at_once : trackStep builtinTables { defaultField with confirm := 1 } [.unknown, .unknown] (.search none) =
      (.locked 0 0, .film .next, some .cadenceLocked) ∧
    trackStep builtinTables defaultField [.unknown] (.search none) = (.search none, .video, none) := by decide +kernel

/-- R22, R61: a write grant counts the line in its record and copies it into the field's image. -/
theorem test_write_grant :
    let s := (withRecv .c2 (fun r => { r with buffer := [⟨17, [], false⟩] }) (withRing .c2 [rec 4 1 .video, newRecord 5 3 0 none]
      none State.reset)).modCh .c2 (fun ch => { ch with cad := { ch.cad with images := [⟨4, defaultField, []⟩, ⟨5, defaultField, []⟩] } })
    ((arbitrate s).ch .c2).ring.map FieldRecord.stored = [0, 1] ∧
    ((arbitrate s).ch .c2).cad.images.map (fun i => i.lines.map Prod.fst) = [[], [17]] := by decide +kernel

/-- R108, R111: at 576 to 1080 the first release comes after line 4; past the last line every row of the band goes. -/
theorem test_release : let x := { blackFrame .r1080 41 with kind := .picture }
    (List.range 6).map (LowestRow x) = [0, 0, 0, 0, 0, 1] ∧ LowestRow x 1080 = 576 ∧
    LowestRow { x with bandFirst := 41, bandCount := 494 } 1079 = 41 + 492 := by decide +kernel

/-- 7.5: the coefficients of phase 16 in a set's image, and the filter over 400, 480, 560 and 600. -/
theorem test_filter_image :
    let image : List Byte := List.replicate 128 0 ++ [224, 255, 176, 1, 128, 0, 240, 255]
    (List.range 4).map (CoefAt image 16) = [-32, 432, 128, -16] ∧
    FilterAt 940 image 16 (fun n => [400, 480, 560, 600].getD n 0) = 501 ∧ PhaseAt 720 1440 3 = 16 ∧
    (List.range 4).map (TapAt 720 1440 3) = [0, 1, 2, 3] ∧ (List.range 4).map (TapAt 720 1440 1439) = [718, 719, 719, 719] := by
  decide +kernel

/-- R85, R86: the turns of the first line place, and a listed line of the predecessor skipped. -/
theorem test_read_plan :
    let f := { freshFrame with pred := some ⟨4, 1, .bottom⟩, turn := 1 }
    (List.range 7).map (fun i => (turnRole i, turnLine i)) = [(.centre, 0), (.pred, 0), (.succ, 0), (.centre, 1), (.pred, 1),
      (.succ, 1), (.centre, 2)] ∧
    (nextTurn false [rec 4 1 .video] f).map Frame.read = some .pending ∧
    (nextTurn false [{ rec 4 1 .video with dropouts := [⟨0, .ecc⟩] }] f).map Frame.lines = some [⟨.pred, 0, none⟩] ∧
    (nextTurn false [] { f with turn := 2 }).map Frame.turn = some 3 := by decide +kernel

/-- R29: an input without timing is lost at the second output frame start. -/
theorem test_loss_at_second_start : ((after (.freeRunExpiry []) State.reset).ch .c0).recv.state = .seeking ∧
    ((after (.freeRunExpiry []) (after (.freeRunExpiry []) State.reset)).ch .c0).recv.state = .loss := by decide +kernel

/-- R168, R104: at line period 37 of a 1080 frame the first report of the window list is sent. -/
theorem test_report_line : ((after (.outputLinePeriod .c0) (withScaler .c0 (blackFrame .r1080 37)
    (State.reset.modCh .c0 (fun ch => { ch with rep := { ch.rep with window := [.event 32768 0 1] } })))).ch .c0).out =
    some (.report (packetWords [0, 129, 0, 7, 0, 128, 0, 0, 0, 0, 1, 247])) := by decide +kernel

/-! ### Meeting the hypotheses of the statements -/

/-- An empty slot holds nothing. -/
theorem slot_empty {α : Type} {x : α} {o : Option α} (ho : o = none) (h : o = some x) : False := by
  rw [ho] at h; cases h

theorem test_meets_StepRunsFrontCommand : ({ State.reset with pending := [.tableSwap] }).pending = .tableSwap :: [] := by rfl

theorem test_meets_PowerOnResetValues :
    67108863 < 67108864 ∧ ([(0, 7), (67108863, 9)] : List Host.Cell).filter (fun x => x.1 == 67108863) = [(67108863, 9)] := by
  decide

theorem test_meets_PinResetValues : (∀ c slot k words, State.reset.arbiter.burst ≠ some (.write c slot k words)) ∧
    (withBurst (.write .c0 1 287 []) State.reset).arbiter.burst = some (.write .c0 1 287 []) ∧
    (chanNat .c0 * 8 + 1) * 1048576 + 1920 * 287 - 1 < (chanNat .c0 * 8 + 1) * 1048576 + 1920 * 287 := by
  refine ⟨fun _ _ _ _ h => slot_empty rfl h, rfl, by decide⟩

theorem test_meets_PinResetValues_cut : (withBurst (.write .c1 2 3 []) (withScaler .c1 (blackFrame .r720 25)
      State.reset)).arbiter.burst = some (.write .c1 2 3 []) ∧
    0 < (chanNat .c1 * 8 + (2 : Fin 8).val) * 1048576 + 1920 * 3 := by decide +kernel

/-- A device reset in a PICTURE frame, in a BLACK one, and in the rest of one that an earlier reset ended. -/
theorem test_meets_PinResetValues_frame :
    ((after (.pinReset 0) (withScaler .c0 (filledFrame 26) State.reset)).ch .c0).scaler = none ∧
    ((after (.pinReset 0) (withScaler .c0 (filledFrame 26) State.reset)).ch .c0).ended =
      some ⟨.r720, .pillar, ⟨90, 500, 500⟩, 26, .f50⟩ ∧
    ((after (.pinReset 0) (withScaler .c1 { blackFrame .r1080 0 with fill := ⟨90, 500, 500⟩ } State.reset)).ch .c1).ended =
      some ⟨.r1080, .pillar, ⟨64, 512, 512⟩, 0, .f50⟩ ∧
    ((after (.pinReset 0) (after (.pinReset 0) (withScaler .c0 (filledFrame 26) State.reset))).ch .c0).ended =
      some ⟨.r720, .pillar, ⟨90, 500, 500⟩, 26, .f50⟩ ∧ (State.reset.ch .c0).scaler = none := by decide +kernel

theorem test_meets_DeviceRestartResult : ((dirState .c2 47 [] State.reset).ch .c2).pku.dirQueue = [⟨47, 33, []⟩] ∧
    (47 : Byte).toNat = 47 ∧ ((dirState .c2 47 [] State.reset).ch .c2).pku.taken < 2 ∧
    (∀ c slot k words, (dirState .c2 47 [] State.reset).arbiter.burst ≠ some (.write c slot k words)) ∧
    (withBurst (.write .c1 2 3 []) (dirState .c2 47 [] State.reset)).arbiter.burst = some (.write .c1 2 3 []) ∧
    (chanNat .c1 * 8 + 2) * 1048576 + 1920 * 3 + 1920 ≤ 10 * 1048576 + 7680 := by
  refine ⟨rfl, rfl, by decide, fun _ _ _ _ h => slot_empty rfl h, rfl, by decide⟩

/-- A directive waiting on a channel of the reset state can be taken. -/
theorem takeable_reset (c : Chan) (kind : Byte) (payload : List Byte) (k n : Nat) (hk : kind.toNat = k)
    (hn : n ≤ payload.length) : Takeable c k n ⟨kind, 33, payload⟩ [] (dirState c kind payload State.reset) := by
  cases c <;> exact ⟨rfl, hk, hn, Nat.zero_lt_two, Nat.lt_of_lt_of_eq (Nat.zero_lt_succ 6) rfl⟩

/-- With seven places taken one is free: the boundary of "a place is free". -/
def nearlyFull (kind : Byte) (payload : List Byte) : State :=
  (dirState .c1 kind payload State.reset).modCh .c1 (fun ch =>
    { ch with rep := { ch.rep with queue := List.replicate 7 (.answer 0 0 .done none []) } })

theorem test_meets_ProbeResult : Takeable .c1 1 0 ⟨1, 33, []⟩ [] (nearlyFull 1 []) := by
  refine ⟨rfl, rfl, by decide, by decide, by decide⟩

theorem test_meets_SetFormatResult_busy :
    Takeable .c1 2 11 ⟨2, 33, [1, 1, 1, 0, 2, 20, 0, 0, 2, 0, 2]⟩ []
      (inState .c1 .running (dirState .c1 2 [1, 1, 1, 0, 2, 20, 0, 0, 2, 0, 2] State.reset)) ∧
    ((inState .c1 .running (dirState .c1 2 [] State.reset)).ch .c1).ctl.state ≠ .stopped := by
  refine ⟨⟨rfl, rfl, by decide, by decide, by decide⟩, by decide⟩

theorem test_meets_SetFormatResult_refused : Takeable .c1 2 11 ⟨2, 33, [3, 1, 1, 0, 2, 20, 0, 0, 2, 0, 2]⟩ []
      (dirState .c1 2 [3, 1, 1, 0, 2, 20, 0, 0, 2, 0, 2] State.reset) ∧
    ((dirState .c1 2 [] State.reset).ch .c1).ctl.state = .stopped ∧
    formatOf? [3, 1, 1, 0, 2, 20, 0, 0, 2, 0, 2] = none := by
  refine ⟨takeable_reset _ _ _ _ _ rfl (by decide), rfl, by decide⟩

/-- 1.9: the stored format after the worked SET FORMAT, its fill luma 20 clamped to 64. -/
theorem test_meets_SetFormatResult_stored : Takeable .c1 2 11 ⟨2, 33, [1, 1, 1, 0, 2, 20, 0, 0, 2, 0, 2]⟩ []
      (dirState .c1 2 [1, 1, 1, 0, 2, 20, 0, 0, 2, 0, 2] State.reset) ∧
    formatOf? [1, 1, 1, 0, 2, 20, 0, 0, 2, 0, 2] = some ⟨.s525, .r720, .crop149, 0, 2, ⟨64, 512, 512⟩⟩ := by
  refine ⟨takeable_reset _ _ _ _ _ rfl (by decide), by decide⟩

theorem test_meets_SetParametersResult : Takeable .c0 3 15 ⟨3, 33, [12, 24, 200, 0, 44, 1, 0, 3, 1, 7, 208, 7, 1, 0, 2]⟩ []
      (dirState .c0 3 [12, 24, 200, 0, 44, 1, 0, 3, 1, 7, 208, 7, 1, 0, 2] State.reset) ∧
    parametersOf? [12, 24, 200, 0, 44, 1, 0, 3, 1, 7, 208, 7, 1, 0, 2] =
      some (⟨12, 24, 200, 300, 1, 3, .videoOnly⟩, ⟨3, 2000, .black⟩, 512) ∧
    Takeable .c0 3 15 ⟨3, 33, [12, 24, 200, 0, 44, 1, 0, 3, 2, 7, 208, 7, 1, 0, 2]⟩ []
      (dirState .c0 3 [12, 24, 200, 0, 44, 1, 0, 3, 2, 7, 208, 7, 1, 0, 2] State.reset) ∧
    parametersOf? [12, 24, 200, 0, 44, 1, 0, 3, 2, 7, 208, 7, 1, 0, 2] = none := by
  refine ⟨takeable_reset _ _ _ _ _ rfl (by decide), by decide, takeable_reset _ _ _ _ _ rfl (by decide), by decide⟩

theorem test_meets_PayloadsAreClamped :
    formatOf? [2, 1, 2, 4, 255, 173, 3, 193, 3, 255, 255] = some ⟨.s405, .r720, .stretch, 3, 3, ⟨940, 960, 960⟩⟩ ∧
    parametersOf? [255, 255, 255, 255, 255, 255, 16, 16, 0, 4, 255, 255, 0, 255, 255] =
      some (⟨255, 255, 65535, 65535, 15, 15, .filmAllowed⟩, ⟨3, 65535, .hold⟩, 65535) := by decide

theorem test_meets_StartResult : Takeable .c3 4 0 ⟨4, 33, []⟩ [] (dirState .c3 4 [] State.reset) :=
  takeable_reset _ _ _ _ _ rfl (by decide)

theorem test_meets_HaltResult : Takeable .c3 5 0 ⟨5, 33, []⟩ [] (inState .c3 .running (dirState .c3 5 [] State.reset)) := by
  refine ⟨rfl, rfl, by decide, by decide, by decide⟩

theorem test_meets_ResetChannelResult :
    Takeable .c2 6 0 ⟨6, 33, []⟩ [] { dirState .c2 6 [] State.reset with loader := .commitPending .c2 (.curve 1) 40 7 } ∧
    (true = true ↔ (∃ e n m, LoadState.commitPending .c2 (.curve 1) 40 7 = .loading .c2 e n m) ∨
      ∃ e tag n, LoadState.commitPending .c2 (.curve 1) 40 7 = .commitPending .c2 e tag n) := by
  refine ⟨⟨rfl, rfl, by decide, by decide, by decide⟩, fun _ => Or.inr ⟨_, _, _, rfl⟩, fun _ => rfl⟩

/-- A reset of a channel whose frame has just begun, its read in flight, and of one that owns no load. -/
theorem test_meets_ResetChannelResult_frame :
    let s := withBurst (.read .c0 1 0 .centre 5 true true) (inFrame freshFrame (filledFrame 0) (dirState .c0 6 [] State.reset))
    Takeable .c0 6 0 ⟨6, 33, []⟩ [] s ∧ (s.ch .c0).engine = some freshFrame ∧ s.loader = .idle ∧
    (false = true ↔ (∃ e n m, s.loader = .loading .c0 e n m) ∨ ∃ e tag n, s.loader = .commitPending .c0 e tag n) := by
  refine ⟨⟨rfl, rfl, by decide, by decide, by decide⟩, rfl, rfl, fun h => Bool.noConfusion h, ?_⟩
  rintro (⟨_, _, _, h⟩ | ⟨_, _, _, h⟩) <;> exact LoadState.noConfusion h

theorem test_meets_ReadStatsResult : Takeable .c0 7 1 ⟨7, 33, [1]⟩ [] (dirState .c0 7 [1] State.reset) :=
  takeable_reset _ _ _ _ _ rfl (by decide)

theorem test_meets_LoadBeginResult : Takeable .c1 16 2 ⟨16, 33, [1, 3]⟩ [] (dirState .c1 16 [1, 3] State.reset) ∧
    (dirState .c1 16 [1, 3] State.reset).loader = .idle ∧
    Takeable .c1 16 2 ⟨16, 33, [0, 8]⟩ [] (dirState .c1 16 [0, 8] State.reset) ∧
    Takeable .c1 16 2 ⟨16, 33, [0, 1]⟩ [] (dirState .c1 16 [0, 1] State.reset) ∧
    Takeable .c1 16 2 ⟨16, 33, [0, 2]⟩ []
      { dirState .c1 16 [0, 2] State.reset with loader := .loading .c1 (.curve 1) 0 99 } := by
  refine ⟨takeable_reset _ _ _ _ _ rfl (by decide), rfl, takeable_reset _ _ _ _ _ rfl (by decide),
    takeable_reset _ _ _ _ _ rfl (by decide), rfl, rfl, by decide, by decide, by decide⟩

theorem test_meets_LoadSegmentResult : Takeable .c1 17 2 ⟨17, 33, [31, 0, 64]⟩ []
    { dirState .c1 17 [31, 0, 64] State.reset with loader := .loading .c1 (.curve 1) 31 0, shadow := List.replicate 31 0 } ∧
    Takeable .c1 17 2 ⟨17, 33, [0, 0]⟩ []
      { dirState .c1 17 [0, 0] State.reset with loader := .commitPending .c2 (.curve 1) 1 1 } ∧
    Takeable .c1 17 2 ⟨17, 33, [0, 0]⟩ [] (dirState .c1 17 [0, 0] State.reset) := by
  refine ⟨⟨rfl, rfl, by decide, by decide, by decide⟩, ⟨rfl, rfl, by decide, by decide, by decide⟩,
    takeable_reset _ _ _ _ _ rfl (by decide)⟩

theorem test_meets_LoadCommitResult_pending : Takeable .c1 18 0 ⟨18, 33, []⟩ []
    { dirState .c1 18 [] State.reset with loader := .loading .c1 (.pattern 2) 11 0, shadow := unusedPattern } ∧
    entrySize (.pattern 2) ≤ 11 ∧ ∀ i, ¬ FaultAt (.pattern 2) unusedPattern i := by
  refine ⟨⟨rfl, rfl, by decide, by decide, by decide⟩, by decide, ?_⟩
  rintro i (⟨-, h, -⟩ | ⟨ph, -, -, h, -⟩ | ⟨ph, h1, -, -, h⟩ | ⟨-, h, -⟩)
  · exact absurd rfl h
  · exact absurd h (Nat.not_lt_zero _)
  · interval_cases ph <;> exact absurd rfl h
  · exact absurd h (by decide)

theorem test_meets_LoadCommitResult_faulty : Takeable .c1 18 0 ⟨18, 33, []⟩ []
    { dirState .c1 18 [] State.reset with loader := .loading .c1 (.curve 3) 32 0, shadow := List.replicate 32 65 } ∧
    FaultAt (.curve 3) (List.replicate 32 65) 0 ∧ (∀ j, j < 0 → ¬ FaultAt (.curve 3) (List.replicate 32 65) j) ∧
    Takeable .c1 18 0 ⟨18, 33, []⟩ []
      { dirState .c1 18 [] State.reset with loader := .loading .c1 (.curve 3) 31 0, shadow := List.replicate 31 0 } ∧
    31 < entrySize (.curve 3) := by
  refine ⟨⟨rfl, rfl, by decide, by decide, by decide⟩, ⟨by decide, Or.inl (by decide)⟩, fun j h => absurd h (by omega),
    ⟨rfl, rfl, by decide, by decide, by decide⟩, by decide⟩

theorem test_meets_LoadAbortResult : Takeable .c1 19 0 ⟨19, 33, []⟩ []
    { dirState .c1 19 [] State.reset with loader := .loading .c1 (.curve 3) 31 0 } ∧
    Takeable .c1 19 0 ⟨19, 33, []⟩ [] (dirState .c1 19 [] State.reset) := by
  refine ⟨⟨rfl, rfl, by decide, by decide, by decide⟩, takeable_reset _ _ _ _ _ rfl (by decide)⟩

/-- 9.6, S7: READ TABLE of coefficient 2 at offset 128, 8 bytes; 192 bytes up to the end; and one byte too many. -/
theorem test_meets_ReadTableResult : Takeable .c0 20 5 ⟨20, 33, [1, 2, 128, 0, 8]⟩ []
      (dirState .c0 20 [1, 2, 128, 0, 8] State.reset) ∧
    Takeable .c0 20 5 ⟨20, 33, [1, 2, 64, 1, 192]⟩ [] (dirState .c0 20 [1, 2, 64, 1, 192] State.reset) ∧
    Takeable .c0 20 5 ⟨20, 33, [2, 3, 0, 0, 33]⟩ [] (dirState .c0 20 [2, 3, 0, 0, 33] State.reset) ∧
    (¬ ∃ e, tableCode e = 3 ∧ entryNumber e = 0) ∧ (tableImage State.reset.tables (.coef 2)).length = entrySize (.coef 2) := by
  refine ⟨takeable_reset _ _ _ _ _ rfl (by decide), takeable_reset _ _ _ _ _ rfl (by decide),
    takeable_reset _ _ _ _ _ rfl (by decide), ?_, by decide +kernel⟩
  rintro ⟨e | e | e, h, -⟩ <;> exact absurd h (by simp [tableCode])

theorem test_meets_DeviceStatusResult : Takeable .c0 32 0 ⟨32, 33, []⟩ [] (dirState .c0 32 [] State.reset) :=
  takeable_reset _ _ _ _ _ rfl (by decide)

theorem test_meets_ErrorCaptureDirectives : Takeable .c0 33 0 ⟨33, 33, []⟩ [] (dirState .c0 33 [] State.reset) ∧
    Takeable .c0 34 1 ⟨34, 33, [2]⟩ [] (dirState .c0 34 [2] State.reset) ∧
    (∀ e slot k role num live present, (dirState .c0 34 [2] State.reset).arbiter.burst ≠
      some (.read e slot k role num live present)) ∧
    (withBurst (.read .c1 5 60 .centre 733 true true) (dirState .c0 34 [0] State.reset)).arbiter.burst =
      some (.read .c1 5 60 .centre 733 true true) :=
  ⟨takeable_reset _ _ _ _ _ rfl (by decide), takeable_reset _ _ _ _ _ rfl (by decide),
    fun _ _ _ _ _ _ _ h => slot_empty rfl h, rfl⟩

theorem test_meets_ArmProbeResult : Takeable .c0 35 8 ⟨35, 33, [3, 63, 2, 207, 2, 4, 255, 255]⟩ []
      (dirState .c0 35 [3, 63, 2, 207, 2, 4, 255, 255] State.reset) ∧
    chanNat .c3 = 3 ∧ 207 + 256 * 2 ≤ 719 ∧
    63 + 256 * 2 < 2 * activeLines ((dirState .c0 35 [] State.reset).ch .c3).ctl.format.standard ∧
    Takeable .c0 35 8 ⟨35, 33, [3, 64, 2, 207, 2, 4, 255, 255]⟩ []
      (dirState .c0 35 [3, 64, 2, 207, 2, 4, 255, 255] State.reset) := by
  refine ⟨takeable_reset _ _ _ _ _ rfl (by decide), by decide, by decide, by decide,
    takeable_reset _ _ _ _ _ rfl (by decide)⟩

theorem test_meets_ReadProbeResult : Takeable .c0 36 0 ⟨36, 33, []⟩ []
    { dirState .c0 36 [] State.reset with
      probe := Probe.captured ⟨.c1, 575, 719, .film, 1023⟩ ⟨7, .film .next, false, 325, none, 0, 64, 325, .locked⟩ } := by
  refine ⟨rfl, rfl, by decide, by decide, by decide⟩

theorem test_meets_UnknownAndShortRefused : Takeable .c0 128 0 ⟨128, 33, []⟩ [] (dirState .c0 128 [] State.reset) ∧
    (128 : Nat) ∉ [1, 2, 3, 4, 5, 6, 7, 16, 17, 18, 19, 20, 32, 33, 34, 35, 36, 47] ∧
    Takeable .c0 16 0 ⟨16, 33, [0]⟩ [] (dirState .c0 16 [0] State.reset) ∧ ([0] : List Byte).length < 2 :=
  ⟨takeable_reset _ _ _ _ _ rfl (by decide), by decide, takeable_reset _ _ _ _ _ rfl (by decide), by decide⟩

/-- A report queue with no free place. -/
def fullQueue : State := (dirState .c1 4 [] State.reset).modCh .c1 (fun ch =>
  { ch with rep := { ch.rep with queue := List.replicate 8 (.answer 0 0 .done none []) } })

theorem test_meets_DirectiveWaits : (fullQueue.ch .c1).pku.dirQueue = [⟨4, 33, []⟩] ∧ fullQueue.freePlaces .c1 = 0 ∧
    dirKind? 4 = some .start ∧ (fullQueue.ch .c1).pku.taken < 2 ∧ (State.reset.ch .c0).pku.dirQueue = [] ∧
    dirKind? 4 ≠ some .halt ∧ 2 ≤ (takeNoMore (fullQueue.ch .c1)).pku.taken := by
  refine ⟨rfl, by decide, by decide, by decide, by decide, by decide, by decide⟩

theorem test_meets_DirectivesKeepTheRest : some DirKind.start ≠ some DirKind.restartDevice := by decide

theorem test_meets_ControlPacketSorted : ((handedState .c1 (packetWords (withChecksum [5, 16, 33, 2, 1, 2])) State.reset).ch
      .c1).pku.handed = [packetWords (withChecksum [5, 16, 33, 2, 1, 2])] ∧
    checkedPacket (packetWords (withChecksum [5, 16, 33, 2, 1, 2])) = some [5, 16, 33, 2, 1, 2, 197] ∧
    checkedPacket [0x2AA, 0x155, 0x2AA, 0x105] = none ∧ (5 : Byte).toNat ≠ State.reset.deviceAddress.toNat ∧
    0 < State.reset.freePlaces .c1 ∧ eventCount (State.reset.ch .c1).rep.queue < 6 ∧ fullQueue.freePlaces .c1 = 0 := by
  refine ⟨rfl, by decide, by decide, by decide, by decide, by decide, by decide⟩

theorem test_meets_PacketsReadBack : (15 : Byte).toNat ≤ 15 ∧ (List.replicate 192 (0 : Byte)).length ≤ 192 ∧
    checkedPacket (packetWords [5, 16, 33, 2, 1, 2, 197]) = some [5, 16, 33, 2, 1, 2, 197] :=
  ⟨by decide, Nat.le_of_eq List.length_replicate, by decide +kernel⟩

theorem test_meets_EventRaisedOrHeld :
    [EventKind.inputLost, .inputRestored, .cadenceLocked, .cadenceLost, .slipDrop, .slipRepeat, .rateMismatch,
      .checksumFail, .directiveOverrun, .eccSingle, .eccDouble, .refLost, .refLocked, .loadAbandoned, .probeHit,
      .restart][15]? = some .restart := by decide

theorem test_meets_TimingWordReachesItsChannel : (State.reset.ch .c0).recv.state ≠ .inField ∧
    (withBurst (.write .c0 1 0 []) State.reset).arbiter.burst ≠ none := by decide

/-- A channel on active line 287 of an accepted field, with one line waiting and a burst in flight. -/
def receiving : State := withBurst (.write .c1 0 0 []) (withRecv .c0 (fun r =>
  { r with state := .inField, accepted := true, lineValid := true, lineNo := 310, buffer := [⟨286, [], false⟩] })
  (inState .c0 .running State.reset))

theorem test_meets_GoodLineIsBuffered : (receiving.ch .c0).recv.state = .inField ∧ (receiving.ch .c0).recv.accepted = true ∧
    (receiving.ch .c0).recv.voteClosed = true ∧ receiving.arbiter.burst ≠ none ∧ (receiving.ch .c0).recv.lineValid = true ∧
    864 = lineLength (receiving.ch .c0).recv.fieldStd ∧ (List.replicate 1728 (0 : LineWord)).length = 2 * 864 ∧
    (receiving.ch .c0).recv.buffer.length < 2 ∧ firstActive (receiving.ch .c0).recv.fieldStd ≤ (receiving.ch .c0).recv.lineNo ∧
    (receiving.ch .c0).recv.lineNo < firstActive (receiving.ch .c0).recv.fieldStd + activeLines
      (receiving.ch .c0).recv.fieldStd := by
  refine ⟨rfl, rfl, rfl, by decide, rfl, rfl, List.length_replicate, by decide, by decide, by decide⟩

/-- The first active line, invalid and cut at its end, finds two lines waiting: TIMING, then LOST. -/
theorem test_meets_GoodLineIsBuffered_dropout :
    let s := withRecv .c0 (fun r =>
      { r with lineValid := false, lineNo := 23, buffer := [⟨0, [], false⟩, ⟨1, [], true⟩] })
      (receiving.modCh .c0 (fun ch => { ch with ring := [newRecord 5 0 0 none] }))
    firstActive (s.ch .c0).recv.fieldStd + 0 = 23 ∧ 0 < activeLines (s.ch .c0).recv.fieldStd ∧
    ((s.ch .c0).recv.lineValid && decide (863 = lineLength (s.ch .c0).recv.fieldStd)) = false ∧
    decide ((s.ch .c0).recv.buffer.length < 2) = false ∧
    fillingRecord (s.ch .c0).ring = some (newRecord 5 0 0 none) ∧
    findRecord (s.ch .c0).ring 5 = some (newRecord 5 0 0 none) ∧ fillingRecord (receiving.ch .c0).ring = none ∧
    (∀ d ∈ (newRecord 5 0 0 none).dropouts, d.line ≠ 0) := by decide

/-- An active line that ends while the arbiter is IDLE and nothing waits: its write is granted at once (R21, R51). -/
theorem test_meets_GoodLineIsBuffered_idle :
    let s := withRecv .c0 (fun r => { r with state := .inField, accepted := true, lineValid := true, lineNo := 23 })
      (withRing .c0 [newRecord 5 3 0 none] none State.reset)
    s.arbiter.burst = none ∧ (s.ch .c0).recv.buffer = [] ∧ (s.ch .c0).recv.voteClosed = true ∧
    fillingRecord (s.ch .c0).ring = some (newRecord 5 3 0 none) ∧ (∀ e, e ≠ .c0 → writeRequest (s.ch e) = none) ∧
    ((after (.timingWord .c0 1 ⟨true, false, .top⟩ ⟨864, []⟩) s).ch .c0).ring.map FieldRecord.stored = [1] := by
  refine ⟨rfl, rfl, rfl, by decide, fun e _ => by cases e <;> decide, by decide +kernel⟩

/-- R17: an invalid active line of a field that is not accepted is neither stored nor listed nor counted. -/
theorem test_meets_GoodLineIsBuffered_unaccepted :
    let s := withRecv .c0 (fun r => { r with state := .inField, lineNo := 23 }) State.reset
    let t := after (.timingWord .c0 1 ⟨true, false, .top⟩ ⟨863, []⟩) s
    (s.ch .c0).recv.accepted = false ∧ firstActive (s.ch .c0).recv.fieldStd ≤ (s.ch .c0).recv.lineNo ∧
    (s.ch .c0).recv.lineNo < firstActive (s.ch .c0).recv.fieldStd + activeLines (s.ch .c0).recv.fieldStd ∧
    (t.ch .c0).recv.buffer = [] ∧ (t.ch .c0).stats.dropoutLines = 0 ∧ (t.ch .c0).recv.lineNo = 24 := by decide +kernel

/-- The last window line of a 625 field, of one active period: its words begin with the marker, and the vote closes
at line V; before line V a second word does not close it, and a third does. -/
theorem test_meets_GoodLineIsBuffered_window :
    let old := { (receiving.ch .c0).recv with lineNo := 22, voteClosed := false, vote := [.top] }
    WindowPart old.fieldStd ⟨145, List.replicate 288 0 ++ [0x2AA, 7]⟩ [0x2AA, 7] ∧
    old.lineNo < firstActive old.fieldStd ∧ firstActive old.fieldStd - 4 ≤ old.lineNo ∧
    old.lineNo + 1 = firstActive old.fieldStd ∧ old.lineNo + 1 ≠ flywheelLine old.fieldStd ∧
    21 + 1 ≠ firstActive old.fieldStd ∧ (old.vote ++ [Parity.bottom]).length ≠ 3 ∧
    ([.top, .bottom, .top] : List Parity).length = 3 ∧
    decideParity [Parity.top] none = (Parity.top, VoteResult.twoOfThree) ∧ 311 = firstActive old.fieldStd + activeLines old.fieldStd ∧
    Parity.top ≠ Parity.bottom := by
  refine ⟨⟨by decide, fun i hi => ?_⟩, by decide, by decide, by decide, by decide, by decide, by decide, by decide, by decide,
    by decide, by decide⟩
  have h : i < 2 := hi
  interval_cases i <;> decide

theorem test_meets_FieldStartBegins : (State.reset.ch .c0).recv.state = .seeking ∧ (State.reset.ch .c0).ctl.state = .stopped ∧
    ((inState .c0 .halting State.reset).ch .c0).recv.state = .seeking ∧
    ((inState .c0 .halting State.reset).ch .c0).ctl.state ≠ .stopped ∧
    ((inState .c0 .halting State.reset).ch .c0).ctl.state ≠ .lost ∧ (State.reset.ch .c0).ring.length < 8 := by decide

/-- A ring of 8 with pins on its first three records: the fourth is reclaimed, still available for output. -/
theorem test_meets_FieldStartBegins_reclaim :
    let r := fun n : Nat => { rec n ⟨n % 8, Nat.mod_lt _ (by decide)⟩ .video with pinned := decide (n < 3) }
    let s := withRing .c0 [r 0, r 1, r 2, r 3, r 4, r 5, r 6, r 7] (some 1) State.reset
    (s.ch .c0).ring.length = 8 ∧ (s.ch .c0).ring = [r 0, r 1, r 2] ++ r 3 :: [r 4, r 5, r 6, r 7] ∧
    (∀ x ∈ [r 0, r 1, r 2], x.pinned = true) ∧ (r 3).pinned = false ∧ (s.ch .c0).ctl.state ≠ .stopped ∧
    (s.ch .c0).ctl.lastOutput = some 1 ∧ 1 ≤ (((r 3).num : Int) - (1 : Nat)) % 4294967296 ∧
    (((r 3).num : Int) - (1 : Nat)) % 4294967296 ≤ 2147483647 := by decide

/-- A field start on the last active line of an accepted field, and on line 0 of one that is not accepted. -/
theorem test_meets_FieldStartBegins_closing :
    let s := receiving.modCh .c0 (fun ch => { ch with ring := [newRecord 5 0 0 none] })
    let a := arbitrate { s.setCh .c0 (endLine ⟨864, []⟩ { s.ch .c0 with recv := { (s.ch .c0).recv with lossCount := 0 } }) with
      now := s.now + 3 }
    let e := a.ch .c0
    (s.ch .c0).recv.state = .inField ∧ e.recv.accepted = true ∧ e.stats.dropoutLines ≤ 65535 ∧
    fillingRecord e.ring = some (newRecord 5 0 0 none) ∧ (e.ring.map FieldRecord.num).Nodup ∧
    findRecord e.ring 5 = some (newRecord 5 0 0 none) ∧ e.recv.buffer.map BufLine.line = [286, 287] ∧
    ((withRecv .c0 (fun r => { r with accepted := false, lineNo := 0 }) s).ch .c0).recv.accepted = false := by
  decide +kernel

/-- R20: a field closed before its first active line lists 16 SHORT entries for active lines 0 to 15, and is damaged and
counted as damaged once; no other record differs. -/
theorem test_meets_FieldStartBegins_damaged :
    let s := withRecv .c0 (fun r => { r with lineNo := 4, buffer := [] })
      (receiving.modCh .c0 (fun ch => { ch with ring := [rec 4 7 .video, newRecord 5 0 0 none] }))
    let t := (after (.timingWord .c0 1 ⟨true, true, .top⟩ ⟨864, []⟩) s).ch .c0
    fillingRecord (s.ch .c0).ring = some (newRecord 5 0 0 none) ∧ ((s.ch .c0).ring.map FieldRecord.num).Nodup ∧
    (s.ch .c0).recv.accepted = true ∧ t.ring[0]? = some (rec 4 7 .video) ∧
    t.ring[1]?.map FieldRecord.dropouts = some ((List.range 16).map (fun k => ⟨k, .short⟩)) ∧
    t.ring[1]?.map FieldRecord.damaged = some true ∧ t.stats.damagedFields = 1 ∧ t.stats.dropoutLines = 288 := by decide +kernel

theorem test_meets_FlywheelStartDeclared : let s := withRecv .c0 (fun r => { r with state := .inField, lineNo := 318 }) State.reset
    (s.ch .c0).recv.state = .inField ∧ (s.ch .c0).recv.voteClosed = true ∧
    (s.ch .c0).recv.lineNo + 1 = (match (s.ch .c0).recv.fieldStd with | .s625 => 319 | .s525 => 271 | .s405 => 210) ∧
    (s.ch .c0).ctl.state = .stopped ∧ ((inState .c0 .running s).ch .c0).ctl.state ≠ .stopped := by decide

/-- R14, R36: at a flywheel start the field in progress is closed: its waiting line is LOST, its record COMPLETE. -/
theorem test_flywheel_closes :
    let s := withRecv .c0 (fun r => { r with state := .inField, accepted := true, lineNo := 318, buffer := [⟨286, [], false⟩] })
      (withBurst (.write .c1 0 0 []) (withRing .c0 [newRecord 5 0 0 (some .top)] none State.reset))
    ((after (.timingWord .c0 1 ⟨false, false, .top⟩ ⟨864, []⟩) s).ch .c0).ring.map (fun r => (r.num, r.state, r.dropouts)) =
      [(5, .complete, [⟨286, .lost⟩]), (0, .filling, [])] := by decide +kernel

theorem test_meets_LossEnds : let s := inState .c0 .lost (withRecv .c0 (fun r => { r with state := .loss }) State.reset)
    (s.ch .c0).recv.state = .loss ∧ (s.ch .c0).recv.latestOffset = none ∧ (s.ch .c0).ctl.state = .lost := by decide

/-- A loss that ends on a STOPPED channel, and on a HALTING one that keeps its ring. -/
theorem test_meets_LossEnds_kept :
    let s := withRecv .c0 (fun r => { r with state := .loss }) State.reset
    let h := inState .c0 .halting (withRing .c0 [rec 39 0 .video] (some 39) s)
    (s.ch .c0).recv.state = .loss ∧ (s.ch .c0).recv.latestOffset = none ∧ (s.ch .c0).ctl.state = .stopped ∧
    (h.ch .c0).recv.state = .loss ∧ (h.ch .c0).ctl.state ≠ .stopped ∧ (h.ch .c0).ctl.state ≠ .lost ∧ (h.ch .c0).ring.length < 8 ∧
    ((after (.timingWord .c0 1 ⟨true, true, .top⟩ ⟨864, []⟩) h).ch .c0).ring.map FieldRecord.num = [39, 0] ∧
    ((after (.timingWord .c0 1 ⟨true, true, .top⟩ ⟨864, []⟩) s).ch .c0).rep.queue = [.event 32768 0 1, .event 2 0 1] := by
  decide +kernel

theorem test_meets_LossEnds_hold :
    let s := withBurst (.read .c0 1 0 .centre 5 true true) (inFrame freshFrame (filledFrame 0) (inState .c0 .lost
      (withRecv .c0 (fun r => { r with state := .loss }) State.reset)))
    (s.ch .c0).recv.state = .loss ∧ (s.ch .c0).recv.latestOffset = none ∧ (s.ch .c0).ctl.state = .lost ∧
    (s.ch .c0).engine = some freshFrame ∧ (s.ch .c0).scaler = some (filledFrame 0) ∧ freshFrame.first = true := by decide +kernel

theorem test_meets_InputLossDeclared : let s := withRecv .c0 (fun r => { r with lossCount := 1 }) State.reset
    (s.ch .c0).recv.lossCount = 1 ∧ (s.ch .c0).recv.state ≠ .loss ∧ (s.ch .c0).lossDone = false ∧
    (State.reset.ch .c0).recv.lossCount ≠ 1 := by decide

theorem test_meets_LineWrittenReadsBack :
    (withBurst (.write .c3 7 287 (List.replicate 1440 64)) State.reset).arbiter.burst =
      some (.write .c3 7 287 (List.replicate 1440 64)) ∧ (List.replicate 1440 64).length = 1440 ∧
    (∀ i, i < 1440 → 64 ≤ (List.replicate 1440 64).getD i 0 ∧
      (List.replicate 1440 64).getD i 0 ≤ (if i % 2 = 1 then 940 else 960)) ∧
    ∀ c slot k words, State.reset.arbiter.burst ≠ some (.write c slot k words) := by
  refine ⟨by simp only [withBurst], List.length_replicate, fun i hi => ?_, fun _ _ _ _ h => slot_empty rfl h⟩
  have h : (List.replicate 1440 64).getD i 0 = 64 := by
    rw [List.getD_eq_getElem?_getD, List.getElem?_replicate, if_pos hi]; rfl
  rw [h]
  split <;> omega

theorem test_meets_ArbiterGrantsWritesFirst :
    let s := withRecv .c2 (fun r => { r with buffer := [⟨17, [], false⟩] }) (withRing .c2 [newRecord 5 3 0 none] none State.reset)
    s.arbiter.burst = none ∧ writeRequest (s.ch .c2) = some (3, ⟨17, [], false⟩) ∧ writeRequest (s.ch .c1) = none ∧
    (∀ e, (chanNat e + 3 - chanNat .c3) % 4 < (chanNat .c2 + 3 - chanNat .c3) % 4 → writeRequest (s.ch e) = none) ∧
    (let t := State.reset.modCh .c1 (fun ch => { ch with engine := some { freshFrame with read := .pending } })
     readRequest (t.ch .c1) = some (⟨5, 0, .top⟩, .centre, 0) ∧ writeRequest (t.ch .c1) = none ∧
     readRequest (t.ch .c0) = none) := by
  refine ⟨by decide, by decide, by decide, fun e => by cases e <;> decide, by decide⟩

/-- A read burst of line place 60 of slot 5 in flight for channel 1, whose record has left the ring. -/
def reading : State := withBurst (.read .c1 5 60 .centre 733 false false) State.reset

theorem test_meets_ReadErrorsCounted : reading.arbiter.burst = some (.read .c1 5 60 .centre 733 false false) ∧
    (reading.ch .c1).stats.eccSingle ≤ 65535 ∧ (reading.ch .c1).stats.eccDouble ≤ 65535 ∧
    (∀ c slot k role num live present, State.reset.arbiter.burst ≠ some (.read c slot k role num live present)) ∧
    wordErrorAt (strikeLine .c1 5 60 [⟨239, ⟨.single, 35, 1, some 0⟩⟩] reading) .c1 5 60 239 =
      some ⟨.single, 35, 1, some 0⟩ := by
  refine ⟨rfl, by decide, by decide, fun _ _ _ _ _ _ _ h => slot_empty rfl h, by decide⟩

/-- A live read of the record's line 60, whose last word is double. -/
theorem test_meets_ReadErrorsCounted_live :
    let s := withBurst (.read .c1 5 60 .centre 733 true true) ((withRing .c1 [rec 733 5 .video] none State.reset).modCh .c1
      (fun ch => { ch with engine := some freshFrame }))
    s.arbiter.burst = some (.read .c1 5 60 .centre 733 true true) ∧ (s.ch .c1).engine = some freshFrame ∧
    (s.ch .c1).ring = [rec 733 5 .video] ∧
    ((wordErrorAt (strikeLine .c1 5 60 [⟨239, ⟨.double, 9, 3, none⟩⟩] s) .c1 5 60 239).map WordError.cls).getD .clean = .double ∧
    (∀ arm, s.probe = .armed arm → arm.chan ≠ .c1) := by
  refine ⟨rfl, rfl, rfl, by decide, fun _ h => Probe.noConfusion h⟩

/-- R38: a double word of a line that is not listed, in a record of 16 entries, sets its damaged flag and is counted as a
damaged field. -/
theorem test_meets_ReadErrorsCounted_full :
    let r := { rec 733 5 .video with dropouts := (List.range 16).map (fun k => ⟨k, .short⟩) }
    let s := withBurst (.read .c1 5 60 .centre 733 true true) (withRing .c1 [r] none State.reset)
    let t := after (.readBurstComplete ⟨[⟨239, ⟨.double, 9, 3, none⟩⟩], []⟩) s
    findRecord (s.ch .c1).ring 733 = some r ∧ r.damaged = false ∧ (∀ d ∈ r.dropouts, d.line ≠ 60) ∧ 16 ≤ r.dropouts.length ∧
    (t.ch .c1).ring = [{ r with damaged := true }] ∧ (t.ch .c1).stats.damagedFields = 1 := by decide +kernel

/-- 4.8: word 17 of line 60, single, syndrome 35, is the first error captured. -/
theorem test_meets_CaptureKeepsFirstError :
    wordErrorAt (strikeLine .c1 5 60 [⟨17, ⟨.single, 35, 1, some 0⟩⟩] reading) .c1 5 60 17 =
      some ⟨.single, 35, 1, some 0⟩ ∧ reading.capture.state = .clear ∧ reading.inhibitSingle = false ∧
    (after (.readBurstComplete ⟨[⟨17, ⟨.single, 35, 1, some 0⟩⟩], []⟩) reading).capture =
      ⟨.single, .c1, 5, 60, 17, 35, false⟩ := by decide +kernel

/-- R58: the option turned on when 18 words of the burst had been read: word 17 is still offered, word 18 is not. -/
theorem test_meets_CaptureKeepsFirstError_option :
    let s := after (.setDeviceOptions .c0) (withBurst (.read .c1 5 60 .centre 733 false false) (dirState .c0 34 [1] State.reset))
    let x := fun w : Fin 240 => [(⟨w, ⟨.single, 35, 1, some 0⟩⟩ : Strike)]
    s.inhibitSingle = true ∧ s.inhibitBefore = [false] ∧ s.arbiter.burst = some (.read .c1 5 60 .centre 733 false false) ∧
    (((s.inhibitBefore.zip [18]).find? (fun x => decide (17 < x.2))).map Prod.fst).getD s.inhibitSingle = false ∧
    (after (.readBurstComplete ⟨x 17, [18]⟩) s).capture.state = .single ∧
    (after (.readBurstComplete ⟨x 18, [18]⟩) s).capture.state = .clear ∧
    (after (.readBurstComplete ⟨x 18, [18]⟩) s).inhibitBefore = [] := by decide +kernel

theorem test_meets_PulseResult : (∀ c, (State.reset.ch c).pku.dirQueue = []) ∧
    State.reset.rtu.state ≠ RtuState.locked50 ∧ State.reset.rtu.family ≠ .f5994 ∧
    ((inState .c0 .running State.reset).ch .c0).ctl.state ≠ .stopped ∧
    familyOf ((inState .c0 .running State.reset).ch .c0).ctl.format.standard ≠ .f5994 ∧
    (pulseRtu .f50 7).state = .locked50 := by
  refine ⟨fun c => by cases c <;> rfl, by decide, by decide, by decide, by decide, rfl⟩

theorem test_meets_TimersExpire : State.reset.rtu.state = .freeRun ∧
    ({ State.reset with rtu := pulseRtu .f5994 0 }).rtu.state ≠ .freeRun := by decide

theorem test_meets_EveryChannelBeginsAFrame :
    (∃ t, exec (.freeRunExpiry []) State.reset = .next t) ∧ State.reset.rtu.state = .freeRun ∧
    (State.reset.ch .c0).ctl.priorFormat = none := ⟨⟨_, rfl⟩, rfl, rfl⟩

/-- R10: a SET FORMAT taken by its own row ahead of a start does not reach the frame that begins there, but the next one. -/
theorem test_meets_EveryChannelBeginsAFrame_format :
    let s := after (.setFormat .c0) (dirState .c0 2 [1, 1, 1, 0, 2, 20, 0, 0, 2, 0, 2] State.reset)
    let t := after (.freeRunExpiry []) s
    (s.ch .c0).ctl.priorFormat.map Prod.snd = some (s.startNo + 1) ∧ (s.ch .c0).ctl.format.raster = .r720 ∧
    (t.ch .c0).scaler.map ScalerFrame.raster = some .r1080 ∧
    ((after (.freeRunExpiry []) t).ch .c0).scaler.map ScalerFrame.raster = some .r720 := by decide +kernel

/-- A RESTART DEVICE taken after channel 0's frame has begun, before channel 1's begins. -/
theorem test_meets_EveryChannelBeginsAFrame_restart :
    let s := dirState .c1 47 [] State.reset
    let t := after (.freeRunExpiry [.control .c0, .packet .c1]) s
    (t.ch .c0).scaler = none ∧ (t.ch .c0).ended = some ⟨.r1080, .pillar, ⟨64, 512, 512⟩, 0, .f50⟩ ∧
    (t.ch .c1).scaler.map ScalerFrame.period = some 0 ∧ (t.ch .c1).ended = none ∧
    (State.reset.ch .c0).pku.dirQueue = [] := by decide +kernel

/-- The pieces of a start: a loss count of 0 and of 1, a load at idle counts 98 and 99, a commit of an earlier start, and
a directive to take. -/
theorem test_meets_EveryChannelBeginsAFrame_halted : let s := State.reset.modCh .c0 (fun ch =>
      { ch with ctl := { ch.ctl with state := .halting, halt := some ⟨.running, 0, 9⟩ } })
    (s.ch .c0).ctl.state = .halting ∧ (s.ch .c0).ctl.halt = some ⟨.running, 0, 9⟩ ∧ 0 ≤ s.startNo ∧ (s.ch .c0).haltDone = false ∧
    ∃ t, exec (.haltComplete .c0) s = .next t := ⟨rfl, rfl, by decide, rfl, _, rfl⟩

theorem test_meets_EveryChannelBeginsAFrame_pieces :
    ((withRecv .c0 (fun r => { r with lossCount := 1 }) State.reset).ch .c0).recv.lossCount = 1 ∧
    (State.reset.ch .c0).recv.lossCount = 0 ∧ (State.reset.ch .c0).lossDone = false ∧ (State.reset.ch .c0).recv.state ≠ .loss ∧
    ({ State.reset with loader := .loading .c1 (.curve 3) 4 99 }).loader = .loading .c1 (.curve 3) 4 99 ∧ 98 < 99 ∧
    ({ State.reset with loader := .commitPending .c1 (.coef 2) 40 7 }).loader = .commitPending .c1 (.coef 2) 40 7 ∧ 7 ≤ 7 ∧
    State.reset.loaderDone = false ∧ (State.reset.ch .c0).pku.dirQueue = [] ∧
    ((dirState .c0 4 [] State.reset).ch .c0).pku.dirQueue = [⟨4, 33, []⟩] ∧
    (∀ w, ([.packet .c1, .loader, .packet .c1] : List StartWork).count w ≤ (match w with | .packet _ => 2 | _ => 1)) := by
  refine ⟨rfl, rfl, rfl, by decide, rfl, by decide, rfl, by decide, rfl, rfl, rfl, fun w => ?_⟩
  rcases w with _ | _ | c | c | c | c <;> (try cases c) <;> decide

theorem test_meets_LoadAbandonedResult :
    ({ State.reset with loader := .loading .c1 (.curve 3) 4 99 }).loaderDone = false ∧ 98 < 99 ∧
    ∀ owner e got n, State.reset.loader ≠ .loading owner e got n := by
  refine ⟨rfl, by decide, fun _ _ _ _ h => LoadState.noConfusion h⟩

theorem test_meets_TableSwapResult : let s := { State.reset with loader := .commitPending .c1 (.coef 2) 40 0, startNo := 0 }
    s.loader = .commitPending .c1 (.coef 2) 40 0 ∧ 0 ≤ s.startNo ∧ s.loaderDone = false ∧
    (∀ i, TableEntry.coef 2 ≠ .pattern i) ∧ ∀ owner e tag n, State.reset.loader = .commitPending owner e tag n → False := by
  refine ⟨rfl, by decide, rfl, fun _ h => TableEntry.noConfusion h, fun _ _ _ _ h => LoadState.noConfusion h⟩

/-- The swap of a pattern that one tracker is locked to, and another is not. -/
theorem test_meets_TableSwapResult_pattern :
    let s := ({ State.reset with loader := .commitPending .c1 (.pattern 7) 40 0 }).modCh .c2
      (fun ch => { ch with cad := { ch.cad with track := .locked 7 0 } })
    s.loader = .commitPending .c1 (.pattern 7) 40 0 ∧ 0 ≤ s.startNo ∧ s.loaderDone = false ∧
    (s.ch .c2).cad.track = .locked 7 0 ∧ (∀ ph, (s.ch .c0).cad.track ≠ .locked 7 ph) ∧
    (∀ ph m, (s.ch .c0).cad.track ≠ .hold 7 ph m) := by
  refine ⟨rfl, by decide, rfl, rfl, fun _ h => Track.noConfusion h, fun _ _ h => Track.noConfusion h⟩

theorem test_meets_HaltCompleteResult : let s := State.reset.modCh .c0 (fun ch =>
      { ch with ctl := { ch.ctl with state := .halting, halt := some ⟨.running, 0, 9⟩ } })
    (s.ch .c0).ctl.state = .halting ∧ (s.ch .c0).ctl.halt = some ⟨.running, 0, 9⟩ ∧ 0 ≤ s.startNo ∧
    (s.ch .c0).haltDone = false ∧ (State.reset.ch .c0).ctl.state ≠ .halting ∧ (s.ch .c0).ctl.pendingFrame = none := by decide

theorem test_meets_LinePeriodEmitted : (State.reset.ch .c0).scaler = none ∧
    ((withScaler .c0 (blackFrame .r720 25) State.reset).ch .c0).scaler = some (blackFrame .r720 25) ∧
    ((withScaler .c0 (blackFrame .r1080 1120) State.reset).ch .c0).scaler = some (blackFrame .r1080 1120) ∧
    (State.reset.ch .c0).rep.window = [] := by decide +kernel

/-- The rest of an output frame after a device reset: its last report line with a report to send, its first and last active
lines, and the first period behind them. -/
theorem test_meets_LinePeriodEmitted_ended :
    let s := fun n : Nat => State.reset.modCh .c0 (fun ch => { ch with
      ended := some ⟨.r720, .pillar, ⟨90, 500, 500⟩, n, .f50⟩, rep := { ch.rep with window := [.event 32768 0 1] } })
    ((s 25).ch .c0).scaler = none ∧ ((s 25).ch .c0).ended = some ⟨.r720, .pillar, ⟨90, 500, 500⟩, 25, .f50⟩ ∧
    26 - 4 ≤ 25 ∧ 25 < 26 ∧ ((s 25).ch .c0).rep.window = [.event 32768 0 1] ∧ activeWindow .pillar .r720 = (160, 960) ∧
    ((after (.outputLinePeriod .c0) (s 25)).ch .c0).rep.window = [] ∧
    ((after (.outputLinePeriod .c0) (s 745)).ch .c0).ended = some ⟨.r720, .pillar, ⟨90, 500, 500⟩, 746, .f50⟩ ∧
    ((after (.outputLinePeriod .c0) (s 746)).ch .c0).out = some .blanking ∧ (State.reset.ch .c0).ended = none := by decide +kernel

/-- R105: the next output line and the previous line of a BLACK frame after its first active line. -/
theorem test_black_line : ((after (.outputLinePeriod .c0) (withScaler .c0 (blackFrame .r720 26) State.reset)).ch .c0).scaler.map
    (fun x => (x.nextLine, x.prevLine.map (fun r => (r.y.size, r.y.getD 959 0)))) = some (1, some (960, 64)) := by decide +kernel

/-- A PICTURE frame at its last active line, with its engine's cache empty. -/
def lastLine : State := (withScaler .c0 { blackFrame .r720 745 with kind := .picture, nextLine := 719 } State.reset).modCh .c0
  (fun ch => { ch with engine := some { freshFrame with delivered := true, rowsBuilt := 576, turn := 864 } })

/-- A PICTURE frame at its first active line, with the built rows its taps read. -/
def firstLine : State := (withScaler .c0 { blackFrame .r1080 41 with kind := .picture } State.reset).modCh .c0
  (fun ch => { ch with engine := some { freshFrame with cache := [(0, blackRow), (1, blackRow)] } })

theorem test_meets_PictureLineEmitted : (lastLine.ch .c0).engine.isSome = true ∧
    ((lastLine.ch .c0).scaler.map ScalerFrame.period) = some (26 + 719) ∧ activeWindow .pillar .r720 = (160, 960) ∧
    (∃ n, n < 4 ∧ cachedRow { freshFrame with delivered := true, rowsBuilt := 576, turn := 864 }
      (0 + TapAt 576 720 719 n) = none) ∧
    LowestRow { blackFrame .r720 745 with kind := .picture, nextLine := 719 } (719 + 1) = 576 := by
  refine ⟨by decide +kernel, by decide +kernel, by decide, ⟨0, by decide, by decide +kernel⟩, by decide +kernel⟩

/-- The first line's taps read rows 0, 0, 0 and 1, both built. -/
theorem test_meets_PictureLineEmitted_formed :
    let f := { freshFrame with cache := [(0, blackRow), (1, blackRow)] }
    (firstLine.ch .c0).engine = some f ∧ (firstLine.ch .c0).scaler = some { blackFrame .r1080 41 with kind := .picture } ∧
    (∀ n, n < 4 → cachedRow f (0 + TapAt 576 1080 0 n) = some ((fun _ => blackRow) n)) := by
  refine ⟨by simp [firstLine, withScaler], by simp [firstLine, withScaler], fun n h => ?_⟩
  have e : ∀ n, n < 4 → TapAt 576 1080 0 n = [0, 0, 0, 1].getD n 0 := by decide +kernel
  rw [e n h]
  interval_cases n <;> simp [cachedRow]

theorem test_meets_ScheduleFollowsTheEligibleList : let ring := [rec 39 0 .video, rec 40 1 .video, rec 41 2 .video]
    eligible (some 38) ring = [rec 39 0 .video, rec 40 1 .video] ∧ eligible (some 40) ring = [] := by decide

/-- A taken centre between its neighbours, a repeat, and a drop of two before a FILM record; and the states in which no
schedule is made. -/
theorem test_meets_ScheduleFollowsTheEligibleList_cases :
    let ring := [rec 39 0 .video, rec 40 1 .video, rec 41 2 .video]
    let film := [rec 39 0 .video, rec 40 1 .video, rec 41 2 (.film .next), rec 42 3 (.film .prev), rec 43 4 .video]
    let s := withRing .c0 [{ rec 39 0 .video with pinned := true }, { rec 40 1 .video with pinned := true }] (some 39) State.reset
    (ring.map FieldRecord.num).Nodup ∧ ring = [] ++ rec 39 0 .video :: rec 40 1 .video :: [rec 41 2 .video] ∧
    (eligible (some 38) ring).length ≤ 2 ∧ (eligible (some 39) film).map FieldRecord.num = [40, 41, 42] ∧
    (3 - 2) % 2 = 1 ∧ ((eligible (some 39) film)[3 - 2]?).bind FieldRecord.decision = some (.film .next) ∧
    pinnedCentre (s.ch .c0) = some { rec 39 0 .video with pinned := true } ∧ eligible (some 39) (s.ch .c0).ring = [] ∧
    (s.ch .c0).ctl.state = .running ∧ (s.ch .c0).haltDone = false ∧ (s.ch .c0).ctl.frame.lossAction = .hold ∧
    (State.reset.ch .c0).ctl.state = .stopped ∧ ((inState .c0 .starting s).ch .c0).ctl.state = .starting ∧
    (s.ch .c0).ring.countP (fun r => decide (r.state = .complete)) = 2 ∧
    ((inState .c0 .lost State.reset).ch .c0).ctl.state = .lost ∧ pinnedCentre (State.reset.ch .c0) = none := by decide

/-- A channel HALTING since output frame start 4: at 4 it does its origin's work, at 5 it stops. -/
theorem test_meets_ScheduleFollowsTheEligibleList_halting :
    let s := State.reset.modCh .c0 (fun ch => { ch with ctl := { ch.ctl with state := .halting, halt := some ⟨.running, 4, 9⟩ } })
    (s.ch .c0).ctl.state = .halting ∧ (s.ch .c0).ctl.halt = some ⟨.running, 4, 9⟩ ∧ 4 ≤ 4 ∧ 4 < 5 := by decide

/-- R132, R161: inside the output frame start the halted channel gives its deferred answer last, its record, lock and field
gone, and the frame is black. -/
theorem test_halt_ends_in_start :
    let s := (withRecv .c0 (fun r => { r with state := .inField, accepted := true, buffer := [⟨3, [], false⟩] })
      (withRing .c0 [rec 39 0 .video, newRecord 40 1 0 none] (some 39) State.reset)).modCh .c0 (fun ch =>
        { ch with ctl := { ch.ctl with state := .halting, halt := some ⟨.running, 4, 9⟩ }, cad := { ch.cad with track := .locked 0 1 } })
    let t := (doWork id 5 s (.control .c0)).ch .c0
    (t.rep.queue.map isEventOrRelay, t.rep.queue.getLast?) = ([true, false], some (.answer 9 5 .done none [])) ∧
    t.ring = [] ∧ t.cad = ⟨.search none, [], none, []⟩ ∧ t.recv.accepted = false ∧ t.recv.buffer = [] ∧
    t.ctl.state = .stopped ∧ t.ctl.halt = none ∧ t.ctl.lastOutput = none ∧ t.scaler.map ScalerFrame.kind = some .black := by
  decide +kernel

/-- Frames that end with and without an excess, and HALTING entered at this start from STARTING and from LOST. -/
theorem test_meets_ScheduleFollowsTheEligibleList_ended :
    let f := { freshFrame with mode := .film .prev, fallback := 2001 }
    let halted := fun o : ChanState => (withRing .c0 [{ rec 39 0 .video with pinned := true }, { rec 40 1 .video with pinned := true }]
      (some 39) State.reset).modCh .c0 (fun ch => { ch with ctl := { ch.ctl with state := .halting, halt := some ⟨o, 4, 9⟩ } })
    ((inFrame f (filledFrame 745) State.reset).ch .c0).engine = some f ∧
    (true = true ↔ f.first = true ∧ (∃ p, f.mode = .film p) ∧ f.fallbackLimit < f.fallback) ∧
    (false = true ↔ freshFrame.first = true ∧ (∃ p, freshFrame.mode = .film p) ∧ freshFrame.fallbackLimit < freshFrame.fallback) ∧
    ((halted .starting).ch .c0).ctl.halt = some ⟨.starting, 4, 9⟩ ∧
    2 ≤ ((halted .starting).ch .c0).ring.countP (fun r => decide (r.state = .complete)) ∧
    ((halted .lost).ch .c0).ctl.halt = some ⟨.lost, 4, 9⟩ ∧ ((halted .lost).ch .c0).ctl.frame.lossAction = .hold ∧
    pinnedCentre ((halted .lost).ch .c0) = some { rec 39 0 .video with pinned := true } ∧
    (State.reset.ch .c0).ring.countP (fun r => decide (r.state = .complete)) < 2 := by
  refine ⟨rfl, ⟨fun _ => ⟨rfl, ⟨_, rfl⟩, by decide⟩, fun _ => rfl⟩, ⟨fun h => Bool.noConfusion h, ?_⟩, by decide, by decide,
    by decide, by decide, by decide, by decide⟩
  rintro ⟨-, ⟨p, h⟩, -⟩
  exact Decision.noConfusion h

/-- Frame values stored at start 4 are in force at start 5 and not at start 4; HALT_COMPLETE has done the work ahead. -/
theorem test_meets_ScheduleFollowsTheEligibleList_values :
    let s := State.reset.modCh .c0 (fun ch => { ch with ctl := { ch.ctl with pendingFrame := some (⟨2, 9, .black⟩, 4) } })
    (s.ch .c0).ctl.pendingFrame = some (⟨2, 9, .black⟩, 4) ∧ 4 < 5 ∧ ¬ 4 < 4 ∧ (s.ch .c0).haltDone = false ∧
    ((doWork id 5 s (.control .c0)).ch .c0).ctl.frame = ⟨2, 9, .black⟩ ∧
    ((doWork id 4 s (.control .c0)).ch .c0).ctl.frame = ⟨0, 2000, .hold⟩ ∧
    ((s.modCh .c0 (fun ch => { ch with haltDone := true })).ch .c0).haltDone = true := by decide +kernel

/-- R84: the frame begun on 40 between 39 and 41, first reconstruction, with the values in force; 41 is not pinned any more
when 40 is taken again. -/
theorem test_frame_latched :
    let s := withRing .c0 [rec 39 0 .video, { rec 40 1 (.film .next) with parity := some .bottom }, rec 41 2 .video] (some 39)
      (State.reset.modCh .c0 (fun ch => { ch with ctl := { ch.ctl with field := { defaultField with comb := 31 } } }))
    let t := doWork id 5 s (.control .c0)
    ((t.ch .c0).engine.map (fun f => (f.centre, f.pred, f.succ))) = some (⟨40, 1, .bottom⟩, some ⟨39, 0, .top⟩, some ⟨41, 2, .top⟩) ∧
    ((t.ch .c0).engine.map (fun f => (f.mode, f.first, f.comb, f.fallbackLimit))) = some (.film .next, true, 31, 2000) ∧
    ((t.ch .c0).engine.map (fun f => (f.height, f.begun))) = some (288, 5) ∧
    ((doWork id 6 t (.control .c0)).ch .c0).engine.map Frame.first = some false := by decide +kernel

/-- The 2:2 entry at phase 0 after P, NONE: its next phase 1 fits P over NONE, and phase 0 does not. -/
theorem test_meets_TrackerFieldEnd : patternMatches builtinPattern22 1 [.p, .neither] = true ∧
    patternMatches builtinPattern22 0 [.p, .neither] = false ∧ (builtinTables.patterns[0].getD 0 0).toNat = 2 := by
  decide +kernel

/-- A scan: P over UNKNOWN fits entry 0 first at phase 1, PR over P fits entry 0 nowhere, and one symbol fits no pattern. -/
theorem test_meets_TrackerFieldEnd_scan : FitsAt builtinTables 0 1 [.p, .unknown] ∧
    (∀ (q : Fin 8) (i : Nat), (q < 0 ∨ (q = 0 ∧ i < 1)) → ¬ FitsAt builtinTables q i [.p, .unknown]) ∧
    (∀ i, ¬ FitsAt builtinTables 0 i [.pr, .p]) ∧ (∀ pat ph, ¬ FitsAt builtinTables pat ph [.p]) ∧
    PartnerAt builtinTables 0 1 = .prev := by
  refine ⟨(patternMatches_iff ..).1 (by decide +kernel), fun q i h => ?_, fun i h => ?_, fun pat ph h => ?_, by decide +kernel⟩
  · rcases h with h | ⟨rfl, h⟩
    · exact absurd h (Nat.not_lt_zero _)
    · obtain rfl : i = 0 := by omega
      rw [← patternMatches_iff]; decide +kernel
  · have hi : i < 2 := h.2.1
    revert h; rw [← patternMatches_iff]
    interval_cases i <;> decide +kernel
  · obtain ⟨h0, -, h1, -⟩ := h
    revert h0 h1; fin_cases pat <;> decide +kernel

/-- A BOTTOM field between its predecessors, with an image of each. -/
theorem test_meets_TrackerFieldEnd_measures :
    let image := fun n : Nat => (⟨n, defaultField, [(0, [64, 64]), (1, [90, 64])]⟩ : Image)
    let b := { rec 7 2 .video with parity := some .bottom }
    let s := (withRing .c0 [{ rec 5 0 .video with parity := some .bottom }, rec 6 1 .video, b] none State.reset).modCh .c0
      (fun ch => { ch with cad := { ch.cad with images := [image 5, image 6, image 7] } })
    (s.ch .c0).ring.reverse = b :: [rec 6 1 .video, { rec 5 0 .video with parity := some .bottom }] ∧
    imageOf (s.ch .c0).cad.images b.num = some (image 7) ∧ imageOf (s.ch .c0).cad.images 6 = some (image 6) ∧
    b.parity = some .bottom ∧ (rec 6 1 .video).parity = some .top ∧
    usableLine (image 7) b 1 = some [90, 64] ∧ usableLine (image 7) { b with dropouts := [⟨1, .lost⟩] } 1 = none ∧
    (∃ x, (some 300 : Option Nat) = some x ∧ x ≤ 300) ∧ (¬ ∃ x, (none : Option Nat) = some x ∧ x ≤ 200) := by
  refine ⟨rfl, by decide, by decide, by decide, by decide, by decide, by decide, ⟨_, rfl, Nat.le_refl _⟩, ?_⟩
  rintro ⟨x, h, -⟩
  exact Option.noConfusion rfl (heq_of_eq h)

theorem test_meets_BlendLiesBetween : (64 : Nat) ≤ 64 ∧ entryValid (.curve 0) builtinCurve = true := by decide

/-- A TOP centre between BOTTOM neighbours, with lines 0 and 1 of each source at hand. -/
def builtFrame (mode : Decision) : Frame :=
  { freshFrame with
    pred := some ⟨4, 1, .bottom⟩, succ := some ⟨6, 2, .bottom⟩, mode := mode, delivered := true, turn := 6, rowsBuilt := 1
    lines := [⟨.centre, 0, some blackRow⟩, ⟨.pred, 0, some blackRow⟩, ⟨.succ, 0, some blackRow⟩, ⟨.centre, 1, some blackRow⟩] }

/-- Missing row 1 woven or blended, and the row below the last line, where the row inside the frame is both. -/
theorem test_meets_BlendLiesBetween_missing :
    let f := builtFrame (.film .prev)
    supplies f.centre.parity 1 = false ∧ (usableRow f .centre ((1 - 1) / 2)).isSome = true ∧
    (usableRow f .centre ((1 + 1) / 2)).isSome = true ∧ oppositeSource f .pred = true ∧ oppositeSource f .succ = true ∧
    (usableRow f .pred (1 / 2)).isSome = true ∧ (usableRow f .succ (1 / 2)).isSome = true ∧ 1 < 2 * f.height ∧
    2 * f.height ≤ 575 + 1 ∧ supplies f.centre.parity 575 = false ∧ usableRow f .pred 287 = none := by decide +kernel

/-- Existing rows: delivered, and listed with both, one or none of the rows two away, at both edges. -/
theorem test_meets_BlendLiesBetween_existing :
    let f := builtFrame .video
    let g := { freshFrame with pred := some ⟨4, 1, .top⟩, succ := some ⟨6, 2, .top⟩
                               lines := [⟨.pred, 0, some blackRow⟩, ⟨.succ, 0, some blackRow⟩] }
    supplies f.centre.parity 0 = true ∧ (usableRow f .centre 0).isSome = true ∧ usableRow f .centre 2 = none ∧
    (usableRow f .centre (2 - 1)).isSome = true ∧ usableRow f .centre (2 + 1) = none ∧
    f.height ≤ 287 + 1 ∧ usableRow g .centre 0 = none ∧ bothSameParity g = true ∧ (usableRow g .pred 0).isSome = true ∧
    (usableRow g .succ 0).isSome = true ∧ bothSameParity f = false := by decide +kernel

/-- Row 2 is next and ready, and an armed probe looks at its last column. -/
theorem test_meets_BlendLiesBetween_next :
    let f := builtFrame (.film .prev)
    let s := (withScaler .c0 { blackFrame .r720 1 with kind := .picture } { State.reset with
      probe := .armed ⟨.c0, 2, 719, .film, 0⟩ }).modCh .c0 (fun ch => { ch with engine := some f })
    (s.ch .c0).engine = some f ∧ rowAt f.centre.parity f.height f.rowsBuilt = 2 ∧ f.rowsBuilt < 2 * f.height ∧
    f.delivered = true ∧ f.cache.length < 12 ∧ rowReady f 2 = true ∧ f.first = true ∧
    s.probe = .armed ⟨.c0, 2, 719, .film, 0⟩ := by
  refine ⟨rfl, by decide, by decide, rfl, by decide, by decide +kernel, rfl, rfl⟩

/-- The read plan: a turn to read, one to skip, the last one, a full cache, a busy channel, a row that waits, and rows of later
places that use a line. -/
theorem test_meets_BlendLiesBetween_plan :
    let f := { freshFrame with pred := some ⟨4, 1, .bottom⟩, succ := some ⟨6, 2, .top⟩ }
    let s := inFrame f (filledFrame 0) (withBurst (.read .c0 1 0 .centre 3 false true) State.reset)
    ReadAtItsTurn [] f .centre 0 ∧ ReadAtItsTurn [rec 4 1 .video] f .pred 0 ∧ ¬ ReadAtItsTurn [] f .succ 0 ∧
    ReadAtItsTurn [] { f with pred := some ⟨4, 1, .top⟩, lines := [⟨.centre, 0, none⟩] } .succ 0 ∧
    f.read = .idle ∧ f.turn < 3 * f.height ∧ f.cache.length < 12 ∧ 863 < 3 * 288 ∧ 3 * 288 ≤ 864 ∧
    (s.ch .c0).engine = some f ∧ buildNext .c0 s = none ∧ f.delivered = false ∧
    nextTurn true [] f = none ∧ rowReady { f with turn := 1 } 1 = false ∧ rowReady { f with turn := 2 } 1 = true ∧
    0 < 3 ∧ 3 < 2 * f.height ∧ UsesLine f (rowAt .top 288 3) .centre 1 ∧ UsesLine f (rowAt .top 288 2) .pred 0 := by
  refine ⟨(lineNeeded_iff ..).1 (by decide), (lineNeeded_iff ..).1 (by decide), ?_, (lineNeeded_iff ..).1 (by decide), rfl,
    by decide, by decide, by decide, by decide, rfl, by decide +kernel, rfl, by decide, by decide, by decide, by decide, by decide,
    ?_, ?_⟩
  · rw [← lineNeeded_iff]; decide
  · exact Or.inl ⟨rfl, Or.inr (Or.inl rfl)⟩
  · exact Or.inr ⟨by decide, rfl, _, rfl, by decide⟩

theorem test_meets_EqualSamplesPassTheFilter : (-32 : Int) + 432 + 128 + (-16) = 512 ∧ filterLuma (-32) 432 128 (-16) 940 940 940 940
    = 940 ∧ filterChroma (-32) 432 128 (-16) 960 960 960 960 = 960 := by decide

/-- A state in which a step is possible meets the premise of the invariants. -/
theorem test_meets_MemoryStaysCanonical : Memory.wf State.reset.dram ∧
    ∃ t, step { State.reset with pending := [.writeBurstComplete] } = .next t := by
  refine ⟨⟨List.Pairwise.nil, fun _ h => absurd h List.not_mem_nil⟩, _, rfl⟩

theorem test_meets_QueuesStayWithinTheirPlaces : QueuesFit State.reset ∧ HeldStatusSound State.reset := by
  refine ⟨fun c => ?_, fun c => ?_⟩ <;> cases c <;> decide

theorem test_meets_CountersStayBounded : CountersSound State.reset := by
  intro c
  refine ⟨by cases c <;> decide, fun f h => ?_⟩
  cases c <;> exact (slot_empty rfl h).elim

theorem test_meets_RtuStaysSound : RtuSound State.reset := ⟨rfl, fun _ h => (slot_empty rfl h).elim⟩

theorem test_meets_RingsKeepTheirShape : RingsSound State.reset ∧ DropoutsSound State.reset := by
  refine ⟨fun c => ?_, fun c => ?_⟩ <;> cases c
  all_goals first
    | exact fun r h => absurd h List.not_mem_nil
    | exact ⟨by decide, by decide, by decide, by decide, fun ⟨r, h, _⟩ => absurd h List.not_mem_nil⟩

/-- A RUNNING channel with the pins on 39, 40 and 41 and a field in progress. -/
theorem test_meets_RingsKeepTheirShape_order :
    let s := (withRing .c0 [{ rec 39 0 .video with pinned := true },
      { rec 40 1 .video with pinned := true }, { rec 41 2 .video with pinned := true }, newRecord 42 3 0 none] (some 40)
      State.reset).modCh .c0 (fun ch => { ch with fieldCount := 43, recv := { ch.recv with state := .inField, accepted := true } })
    RingsSound s ∧ RingOrderSound s ∧ (∀ c, ∀ r ∈ (s.ch c).ring, recordAge (s.ch c) r < 4294967295) := by
  refine ⟨fun c => ?_, fun c => ?_, fun c => ?_⟩ <;> cases c
  · exact ⟨by decide, by decide, by decide, by decide, fun _ => ⟨rfl, rfl⟩⟩
  iterate 3 exact ⟨by decide, by decide, by decide, by decide, fun ⟨r, h, _⟩ => absurd h List.not_mem_nil⟩
  · refine ⟨⟨by decide, by decide, by decide, by decide⟩, by decide, 1, by decide, by decide, fun i r h => ?_⟩
    have hi : i < 4 := (List.getElem?_eq_some_iff.1 h).1
    interval_cases i <;> cases h <;> decide
  iterate 3 exact ⟨⟨by decide, by decide, by decide, by decide⟩, by decide, fun r h => absurd h List.not_mem_nil⟩
  all_goals decide

theorem test_meets_TablesStayValid : LoaderSound State.reset := by
  refine ⟨⟨fun e => ?_, fun e _ => rfl⟩, rfl⟩
  rcases e with i | i | i
  · fin_cases i <;> decide
  · fin_cases i <;> decide +kernel
  · fin_cases i <;> decide

theorem test_meets_OnlyTheseCommandsChange : (∀ a b c, Instr.writeBurstComplete ≠ .powerOnReset a b c) ∧
    (∀ a, Instr.writeBurstComplete ≠ .pinReset a) ∧ ∃ t, exec .writeBurstComplete State.reset = .next t := by
  refine ⟨fun _ _ _ h => Instr.noConfusion h, fun _ h => Instr.noConfusion h, _, rfl⟩

end Sys2Proof.Tests
end

section
/-! SUPPORT. What a step can do to a field ring, said once (R32 to R46): the moves of a ring, and what they keep. -/

namespace Sys2Proof.Machine

open Sys2Proof

/-! ### What the rules about the ring read of a channel -/

/-- The part of a channel that the rules about its ring speak of; `accepting` says that an accepted field is in
progress. -/
structure RingView where
  ring       : List FieldRecord
  fieldCount : Nat
  accepting  : Bool
  last       : Option Nat

/-- That part of channel `ch`. -/
def ringView (ch : Channel) : RingView :=
  ⟨ch.ring, ch.fieldCount, decide (ch.recv.state = .inField) && ch.recv.accepted, ch.ctl.lastOutput⟩

/-- R37: a dropout list as every record keeps it. -/
def DropoutsInOrder (ds : List Dropout) : Prop := ds.length ≤ 16 ∧ ds.Pairwise (fun a b => a.line < b.line)

/-- A change of a record in place: its number, slot and pin stand, it does not become FILLING again, and its
dropout list stays in order. -/
structure EditsInPlace (f : FieldRecord → FieldRecord) : Prop where
  num      : ∀ r, (f r).num = r.num
  slot     : ∀ r, (f r).slot = r.slot
  pinned   : ∀ r, (f r).pinned = r.pinned
  state    : ∀ r, (f r).state = r.state ∨ (f r).state = .complete
  dropouts : ∀ r, DropoutsInOrder r.dropouts → DropoutsInOrder (f r).dropouts

/-- Whether a record is pinned and COMPLETE: such a record leaves the ring only with all others (R40, R43). -/
def standsFast (r : FieldRecord) : Bool := r.pinned && decide (r.state = .complete)

/-- Records leave the ring, and none that is pinned and COMPLETE (R34, R43). -/
def RecordsLeave (old new : List FieldRecord) : Prop :=
  new.Sublist old ∧ old.countP standsFast ≤ new.countP standsFast

/-- What a step does to a ring, an accepted field start apart: records edited in place, records leaving, the end of
the accepted field, a flush with its last output field (R43 to R46), and the take of a new centre (R128, R40). -/
inductive RingMove : RingView → RingView → Prop
  | edit {v : RingView} {f : FieldRecord → FieldRecord} (hf : EditsInPlace f) :
      RingMove v { v with ring := v.ring.map f }
  | leave {v : RingView} {ring : List FieldRecord} (h : RecordsLeave v.ring ring) : RingMove v { v with ring := ring }
  | close {v : RingView} {b : Bool} (h : v.accepting = false ∨ ∀ r ∈ v.ring, r.state = .complete) :
      RingMove v { v with accepting := b }
  | flush {v : RingView} {n : Nat} {b : Bool} (hn : n = v.fieldCount ∨ n = 0) : RingMove v ⟨[], n, b, none⟩
  | take {v : RingView} {front back : List FieldRecord} {x y : FieldRecord}
      (h : v.ring = front ++ x :: y :: back) (hx : x.state = .complete) (hy : y.state = .complete) :
      RingMove v { v with ring := releasedRing x.num v.ring, last := some x.num }

/-- The ring when the oldest unpinned of 8 records has made room (R34 step 1). -/
def reclaimedRing (ring : List FieldRecord) : List FieldRecord :=
  if 8 ≤ ring.length then
    match oldestUnpinned ring with
    | none   => ring
    | some r => ring.erase r
  else ring

/-- An accepted field start: reclaim, then a FILLING record that carries the field count, which advances (R4, R34). -/
def RingAccept (v w : RingView) : Prop :=
  v.accepting = false ∧ ∃ offset flywheel, w =
    { ring := reclaimedRing v.ring ++ [newRecord v.fieldCount (lowestFreeSlot (reclaimedRing v.ring)) offset flywheel]
      fieldCount := nextField v.fieldCount
      accepting := true
      last := v.last }

/-- Moves in a row. -/
abbrev RingMoves : RingView → RingView → Prop := Relation.ReflTransGen RingMove

/-- What one step does to a ring: moves, with one accepted field start behind them at most. -/
def RingStep (v w : RingView) : Prop := RingMoves v w ∨ ∃ x, RingMoves v x ∧ RingAccept x w

/-- What every move keeps, moves in a row keep. -/
theorem RingMoves.keeps {P : RingView → Prop} (hP : ∀ v w, P v → RingMove v w → P w) {v w : RingView}
    (h : RingMoves v w) (hv : P v) : P w := by
  induction h with
  | refl => exact hv
  | tail _ hm ih => exact hP _ _ ih hm

/-! ### Records that leave -/

theorem RecordsLeave.refl (ring : List FieldRecord) : RecordsLeave ring ring := ⟨.refl _, le_rfl⟩

/-- A filter that leaves out no record pinned and COMPLETE. -/
theorem recordsLeave_filter {ring : List FieldRecord} {q : FieldRecord → Bool}
    (h : ∀ r ∈ ring, standsFast r = true → q r = true) : RecordsLeave ring (ring.filter q) := by
  refine ⟨List.filter_sublist, ?_⟩
  rw [List.countP_filter]
  exact List.countP_mono_left fun r hr hs => by simp [hs, h r hr hs]

/-- Reclaim removes no pinned record (R34). -/
theorem recordsLeave_reclaimedRing (ring : List FieldRecord) : RecordsLeave ring (reclaimedRing ring) := by
  unfold reclaimedRing
  split
  · split
    · exact .refl _
    · next r hr =>
      have hp : standsFast r = false := by
        have := List.find?_some hr
        simp only [Bool.not_eq_true'] at this
        simp [standsFast, this]
      refine ⟨List.erase_sublist, ?_⟩
      rw [List.countP_erase]; simp [hp]
  · exact .refl _

/-- What leaves a ring of two parts leaves each of them. -/
theorem RecordsLeave.append_inv {a b ring : List FieldRecord} (h : RecordsLeave (a ++ b) ring) :
    ∃ a' b', ring = a' ++ b' ∧ RecordsLeave a a' ∧ RecordsLeave b b' := by
  obtain ⟨hs, hc⟩ := h
  obtain ⟨a', b', rfl, ha, hb⟩ := List.sublist_append_iff.1 hs
  have h1 := ha.countP_le (p := standsFast)
  have h2 := hb.countP_le (p := standsFast)
  simp only [List.countP_append] at hc
  exact ⟨a', b', rfl, ⟨ha, by omega⟩, ⟨hb, by omega⟩⟩

/-- A record pinned and COMPLETE does not leave. -/
theorem RecordsLeave.singleton_inv {r : FieldRecord} {ring : List FieldRecord} (h : RecordsLeave [r] ring)
    (hr : standsFast r = true) : ring = [r] := by
  obtain ⟨hs, hc⟩ := h
  refine hs.eq_of_length_le ?_
  have := List.countP_le_length (p := standsFast) (l := ring)
  simp only [List.countP_cons, hr, List.countP_nil, if_true] at hc
  simp only [List.length_singleton]
  omega

theorem RecordsLeave.cons_inv {r : FieldRecord} {rest ring : List FieldRecord} (h : RecordsLeave (r :: rest) ring)
    (hr : standsFast r = true) : ∃ rest', ring = r :: rest' ∧ RecordsLeave rest rest' := by
  obtain ⟨a, b, rfl, ha, hb⟩ := h.append_inv (a := [r])
  exact ⟨b, by rw [ha.singleton_inv hr]; rfl, hb⟩

/-! ### Release (R40) -/

/-- The record with its pin set or withdrawn. -/
def withPin (b : Bool) (r : FieldRecord) : FieldRecord := { r with pinned := b }

/-- The pin of the record at place `i` around a centre (R39). -/
def pinAt (place i : Nat) (r : FieldRecord) : FieldRecord :=
  withPin (decide (i = place ∨ i + 1 = place ∨ i = place + 1)) r

theorem pinAround_eq (place : Nat) (ring : List FieldRecord) : pinAround place ring = ring.mapIdx (pinAt place) := rfl

/-- Counting places from `k + 1` on is counting from `k` on, one later. -/
theorem pinAt_shift (place k : Nat) : (fun i => pinAt place (i + 1 + k)) = fun i => pinAt place (i + (k + 1)) := by
  funext i
  rw [show i + 1 + k = i + (k + 1) by omega]

/-- Release of records from place `k` of the ring on. -/
def releasedFrom (place k : Nat) (ring : List FieldRecord) : List FieldRecord :=
  (((ring.mapIdx fun i => pinAt place (i + k)).zipIdx k).filter (fun x => !behindPredecessor place x)).map Prod.fst

theorem releasedRing_eq (num : Nat) (ring : List FieldRecord) :
    releasedRing num ring = releasedFrom (ringPlace num ring) 0 ring := rfl

theorem releasedFrom_cons (place k : Nat) (r : FieldRecord) (ring : List FieldRecord) :
    releasedFrom place k (r :: ring) = if k + 1 < place ∧ r.state = .complete then releasedFrom place (k + 1) ring
      else pinAt place k r :: releasedFrom place (k + 1) ring := by
  unfold releasedFrom
  rw [List.mapIdx_cons, pinAt_shift, List.zipIdx_cons, List.filter_cons]
  simp only [Nat.zero_add]
  by_cases h : k + 1 < place ∧ r.state = .complete
  · obtain ⟨hk, hr⟩ := h
    have hn : ¬ (k = place ∨ k + 1 = place ∨ k = place + 1) := by omega
    simp [behindPredecessor, pinAt, withPin, hk, hr, hn]
  · rw [if_neg h, if_pos, List.map_cons]
    have hs : (pinAt place k r).state = r.state := rfl
    simp only [behindPredecessor, hs, Bool.not_eq_true', Bool.and_eq_false_iff, decide_eq_false_iff_not]
    tauto

/-- COMPLETE records before the predecessor of the centre are released. -/
theorem releasedFrom_front {place k : Nat} {front ring : List FieldRecord} (h : ∀ r ∈ front, r.state = .complete)
    (hk : k + front.length + 1 = place) :
    releasedFrom place k (front ++ ring) = releasedFrom place (k + front.length) ring := by
  induction front generalizing k with
  | nil => rfl
  | cons r front ih =>
    simp only [List.length_cons] at hk ⊢
    rw [List.cons_append, releasedFrom_cons, if_pos ⟨by omega, h r (by simp)⟩,
      ih (fun x hx => h x (by simp [hx])) (by omega), show k + 1 + front.length = k + (front.length + 1) by omega]

/-- Records behind the successor of the centre stay, unpinned. -/
theorem releasedFrom_back {place k : Nat} (ring : List FieldRecord) (hk : place + 1 < k) :
    releasedFrom place k ring = ring.map (withPin false) := by
  induction ring generalizing k with
  | nil => rfl
  | cons r ring ih =>
    have hn : ¬ (k = place ∨ k + 1 = place ∨ k = place + 1) := by omega
    rw [releasedFrom_cons, if_neg (by omega), ih (by omega), List.map_cons, pinAt, decide_eq_false hn]

/-- The centre, its successor and what stands behind them (R40). -/
theorem releasedFrom_centre (place : Nat) (x y : FieldRecord) (back : List FieldRecord) :
    releasedFrom place place (x :: y :: back) = withPin true x :: withPin true y :: back.map (withPin false) := by
  rw [releasedFrom_cons, if_neg (by omega), releasedFrom_cons, if_neg (by omega), releasedFrom_back _ (by omega)]
  simp [pinAt]

/-- The predecessor of the centre stays, pinned (R40). -/
theorem releasedFrom_predecessor (k : Nat) (q : FieldRecord) (ring : List FieldRecord) :
    releasedFrom (k + 1) k (q :: ring) = withPin true q :: releasedFrom (k + 1) (k + 1) ring := by
  rw [releasedFrom_cons, if_neg (by omega)]
  simp [pinAt]

/-- The records after release are records of the ring, but for their pins. -/
theorem releasedRing_sublist (num : Nat) (ring : List FieldRecord) :
    (releasedRing num ring).Sublist (pinAround (ringPlace num ring) ring) := by
  unfold releasedRing
  refine (List.filter_sublist.map _).trans ?_
  rw [List.zipIdx_map_fst]

/-- What does not depend on the pin is the same after the pins have moved. -/
theorem map_pinAround {α : Type} {g : FieldRecord → α} (hg : ∀ b r, g (withPin b r) = g r) (place : Nat)
    (ring : List FieldRecord) : (pinAround place ring).map g = ring.map g := by
  rw [pinAround_eq]
  exact List.ext_getElem (by simp) fun i _ _ => by simp [pinAt, hg]

/-- At most three places around a centre are pinned (R39). -/
theorem countP_pinned_from (place k : Nat) (ring : List FieldRecord) :
    (ring.mapIdx fun i => pinAt place (i + k)).countP FieldRecord.pinned ≤ min 3 (place + 2 - k) := by
  induction ring generalizing k with
  | nil => simp
  | cons r ring ih =>
    have ih := ih (k + 1)
    rw [List.mapIdx_cons, pinAt_shift, List.countP_cons]
    simp only [Nat.zero_add, pinAt, withPin, decide_eq_true_eq] at ih ⊢
    split <;> omega

theorem countP_pinned_pinAround (place : Nat) (ring : List FieldRecord) :
    (pinAround place ring).countP FieldRecord.pinned ≤ 3 :=
  (countP_pinned_from place 0 ring).trans (by omega)

end Sys2Proof.Machine
end

section
/-! SUPPORT. The invariants of a ring (R32, R33, R37, R39), and that every move keeps them. -/

namespace Sys2Proof.Machine

open Sys2Proof

/-! ### The ring's shape (R32, R33, R39) -/

/-- The shape of a ring: `RingShape`, with "only the newest may be FILLING" said of each two records. -/
structure RingView.Shaped (v : RingView) : Prop where
  length : v.ring.length ≤ 8
  slots  : (v.ring.map FieldRecord.slot).Nodup
  pins   : v.ring.countP FieldRecord.pinned ≤ 3
  order  : v.ring.Pairwise (fun a _ => a.state = .complete)
  idle   : v.accepting = false → ∀ r ∈ v.ring, r.state = .complete

/-- What holds of all but the last holds of the earlier of each two. -/
theorem forall_mem_dropLast_iff {α : Type} {P : α → Prop} {l : List α} :
    (∀ a ∈ l.dropLast, P a) ↔ l.Pairwise (fun a _ => P a) := by
  induction l with
  | nil => simp
  | cons a l ih =>
    cases l with
    | nil => simp
    | cons b l =>
      rw [List.dropLast_cons_cons, List.forall_mem_cons, ih, List.pairwise_cons (a := a)]
      exact ⟨fun ⟨ha, h⟩ => ⟨fun _ _ => ha, h⟩, fun ⟨ha, h⟩ => ⟨ha b (by simp), h⟩⟩

theorem ringShape_iff (ch : Channel) : RingShape ch ↔ (ringView ch).Shaped := by
  have hidle : ((∃ r ∈ ch.ring, r.state = .filling) → ch.recv.state = .inField ∧ ch.recv.accepted = true) ↔
      ((ringView ch).accepting = false → ∀ r ∈ (ringView ch).ring, r.state = .complete) := by
    have hc : ∀ r : FieldRecord, r.state = .complete ↔ ¬ r.state = .filling := fun r => by cases r.state <;> simp
    have ha : (ringView ch).accepting = false ↔ ¬ (ch.recv.state = .inField ∧ ch.recv.accepted = true) := by
      simp [ringView]
    rw [ha, not_imp_comm]
    simp only [hc, not_forall, not_not, exists_prop]
    rfl
  unfold RingShape
  rw [hidle, forall_mem_dropLast_iff]
  exact ⟨fun ⟨a, b, c, d, e⟩ => ⟨a, b, c, d, e⟩, fun ⟨a, b, c, d, e⟩ => ⟨a, b, c, d, e⟩⟩

/-- A COMPLETE record stays so when it is edited. -/
theorem EditsInPlace.complete {f : FieldRecord → FieldRecord} (hf : EditsInPlace f) {r : FieldRecord}
    (h : r.state = .complete) : (f r).state = .complete :=
  (hf.state r).elim (fun e => e.trans h) id

/-- What an edit leaves of each record, it leaves of the ring. -/
theorem map_map_eq_map {α : Type} {f : FieldRecord → FieldRecord} {g : FieldRecord → α}
    (h : ∀ r, g (f r) = g r) (ring : List FieldRecord) : (ring.map f).map g = ring.map g := by
  simp [h]

/-- Records of a released ring are records of the ring, but for their pins. -/
theorem mem_releasedRing {num : Nat} {ring : List FieldRecord} {r : FieldRecord} (h : r ∈ releasedRing num ring) :
    ∃ x ∈ ring, ∃ b, r = withPin b x := by
  have hr := (releasedRing_sublist num ring).subset h
  rw [pinAround_eq, List.mem_mapIdx] at hr
  obtain ⟨i, hi, rfl⟩ := hr
  exact ⟨ring[i], List.getElem_mem hi, _, rfl⟩

/-- Sublists are kept by a map. -/
theorem releasedRing_map_sublist {α : Type} {g : FieldRecord → α} (hg : ∀ b r, g (withPin b r) = g r) (num : Nat)
    (ring : List FieldRecord) : ((releasedRing num ring).map g).Sublist (ring.map g) := by
  rw [← map_pinAround hg (ringPlace num ring) ring]
  exact (releasedRing_sublist num ring).map g

/-- Every move keeps the ring's shape. -/
theorem RingMove.keeps_shaped (v w : RingView) (hv : v.Shaped) (h : RingMove v w) : w.Shaped := by
  obtain ⟨hlen, hslots, hpins, horder, hidle⟩ := hv
  cases h with
  | edit hf =>
    refine ⟨by simpa using hlen, ?_, ?_, ?_, ?_⟩
    · simpa only [map_map_eq_map hf.slot] using hslots
    · rw [List.countP_map, List.countP_congr (q := FieldRecord.pinned)]
      · exact hpins
      · intro r _; simp [hf.pinned]
    · rw [List.pairwise_map]
      exact horder.imp fun h => hf.complete h
    · intro ha r hr
      obtain ⟨x, hx, rfl⟩ := List.mem_map.1 hr
      exact hf.complete (hidle ha x hx)
  | leave hl =>
    obtain ⟨hs, -⟩ := hl
    exact ⟨hs.length_le.trans hlen, hslots.sublist (hs.map _), hs.countP_le.trans hpins, horder.sublist hs,
      fun ha r hr => hidle ha r (hs.subset hr)⟩
  | close hc => exact ⟨hlen, hslots, hpins, horder, fun _ => hc.elim hidle id⟩
  | flush hn => exact ⟨by simp, by simp, by simp, by simp, by simp⟩
  | @take front back x y hr hx hy =>
    have hsub := releasedRing_sublist x.num v.ring
    refine ⟨?_, ?_, hsub.countP_le.trans (countP_pinned_pinAround _ _), ?_, ?_⟩
    · simpa [pinAround] using hsub.length_le.trans (by simpa [pinAround] using hlen)
    · exact hslots.sublist (releasedRing_map_sublist (fun _ _ => rfl) _ _)
    · have hm := List.pairwise_map (f := FieldRecord.state) (R := fun a _ => a = .complete) (l := v.ring)
      exact List.pairwise_map.1 ((hm.2 horder).sublist (releasedRing_map_sublist (fun _ _ => rfl) _ _))
    · intro ha r hr
      obtain ⟨z, hz, b, rfl⟩ := mem_releasedRing hr
      exact hidle ha z hz

/-! ### The dropout lists (R37) -/

/-- Every record's dropout list is in order. -/
def RingView.ListsInOrder (v : RingView) : Prop := ∀ r ∈ v.ring, DropoutsInOrder r.dropouts

/-- Every move keeps the dropout lists in order. -/
theorem RingMove.keeps_listsInOrder (v w : RingView) (hv : v.ListsInOrder) (h : RingMove v w) : w.ListsInOrder := by
  intro r hr
  cases h with
  | edit hf =>
    obtain ⟨x, hx, rfl⟩ := List.mem_map.1 hr
    exact hf.dropouts x (hv x hx)
  | leave hl => exact hv r (hl.1.subset hr)
  | close _ => exact hv r hr
  | flush _ => simp at hr
  | take _ _ _ =>
    obtain ⟨x, hx, b, rfl⟩ := mem_releasedRing hr
    exact hv x hx

/-! ### The records' numbers (R4, R32) -/

/-- `recordAge` of a record, for what the rules read of its channel. -/
def RingView.age (v : RingView) (r : FieldRecord) : Nat := (v.fieldCount + 4294967296 - r.num) % 4294967296

/-- The numbers of a ring in order: `NumbersInOrder`. -/
structure RingView.Numbered (v : RingView) : Prop where
  count : v.fieldCount < 4294967296
  below : ∀ r ∈ v.ring, r.num < 4294967296 ∧ 1 ≤ v.age r
  nodup : (v.ring.map FieldRecord.num).Nodup
  order : v.ring.Pairwise (fun a b => v.age b < v.age a)

theorem numbersInOrder_iff (ch : Channel) : NumbersInOrder ch ↔ (ringView ch).Numbered :=
  ⟨fun ⟨a, b, c, d⟩ => ⟨a, b, c, d⟩, fun ⟨a, b, c, d⟩ => ⟨a, b, c, d⟩⟩

/-- No record is so old that a further field start would give it the age 0 again (R4). -/
def RingView.Young (v : RingView) : Prop := ∀ r ∈ v.ring, v.age r < 4294967295

/-- The ages of a ring's records, in ring order, are what the numbers' order speaks of. -/
theorem RingView.age_pairwise_iff {v w : RingView} (hc : w.fieldCount = v.fieldCount) :
    w.ring.Pairwise (fun a b => w.age b < w.age a) ↔ (w.ring.map FieldRecord.num).Pairwise (fun a b =>
      (v.fieldCount + 4294967296 - b) % 4294967296 < (v.fieldCount + 4294967296 - a) % 4294967296) := by
  rw [List.pairwise_map, ← hc]
  rfl

/-- What the numbers say is kept where the field count stands and numbers leave at most. -/
theorem RingView.Numbered.of_sublist {v w : RingView} (hv : v.Numbered) (hc : w.fieldCount = v.fieldCount)
    (hs : (w.ring.map FieldRecord.num).Sublist (v.ring.map FieldRecord.num)) : w.Numbered := by
  refine ⟨hc ▸ hv.count, fun r hr => ?_, hv.nodup.sublist hs, ?_⟩
  · obtain ⟨x, hx, e⟩ := List.mem_map.1 (hs.subset (List.mem_map_of_mem hr))
    have := hv.below x hx
    unfold RingView.age at this ⊢
    rw [← e, hc]; exact this
  · rw [RingView.age_pairwise_iff hc]
    exact ((RingView.age_pairwise_iff rfl).1 hv.order).sublist hs

/-- Ages stay below their bound where the field count stands and numbers leave at most. -/
theorem RingView.Young.of_sublist {v w : RingView} (hv : v.Young) (hc : w.fieldCount = v.fieldCount)
    (hs : (w.ring.map FieldRecord.num).Sublist (v.ring.map FieldRecord.num)) : w.Young := by
  intro r hr
  obtain ⟨x, hx, e⟩ := List.mem_map.1 (hs.subset (List.mem_map_of_mem hr))
  have := hv x hx
  unfold RingView.age at this ⊢
  rw [← e, hc]; exact this

/-- A move flushes the ring, or leaves the field count and a part of the numbers in their order. -/
theorem RingMove.numbers {v w : RingView} (h : RingMove v w) :
    (w.ring = [] ∧ (w.fieldCount = v.fieldCount ∨ w.fieldCount = 0)) ∨
      (w.fieldCount = v.fieldCount ∧ (w.ring.map FieldRecord.num).Sublist (v.ring.map FieldRecord.num)) := by
  cases h with
  | edit hf => exact .inr ⟨rfl, by rw [map_map_eq_map hf.num]⟩
  | leave hl => exact .inr ⟨rfl, hl.1.map _⟩
  | close _ => exact .inr ⟨rfl, .refl _⟩
  | flush hn => exact .inl ⟨rfl, hn⟩
  | take _ _ _ => exact .inr ⟨rfl, releasedRing_map_sublist (fun _ _ => rfl) _ _⟩

theorem RingMove.keeps_numbered {v w : RingView} (hv : v.Numbered) (h : RingMove v w) : w.Numbered := by
  obtain ⟨hr, hc⟩ | ⟨hc, hs⟩ := h.numbers
  · have := hv.count
    exact ⟨by omega, by simp [hr], by simp [hr], by simp [hr]⟩
  · exact hv.of_sublist hc hs

theorem RingMove.keeps_young {v w : RingView} (hv : v.Young) (h : RingMove v w) : w.Young := by
  obtain ⟨hr, -⟩ | ⟨hc, hs⟩ := h.numbers
  · intro r h; simp [hr] at h
  · exact hv.of_sublist hc hs

/-! ### The pins (R39, R40) -/

/-- Before the centre its predecessor alone is pinned, where one is present. -/
def PredecessorPinned (l : List FieldRecord) : Prop :=
  l = [] ∨ ∃ front q, l = front ++ [q] ∧ standsFast q = true ∧ ∀ r ∈ front, r.pinned = false

/-- R39: the ring around the centre `n`, its successor behind it. -/
def PinsAround (n : Nat) (ring : List FieldRecord) : Prop :=
  ∃ before x y back, ring = before ++ x :: y :: back ∧ PredecessorPinned before ∧ standsFast x = true ∧
    standsFast y = true ∧ (∀ r ∈ back, r.pinned = false) ∧ x.num = n ∧ ∀ r ∈ before, r.num ≠ n

/-- The pins of a ring: none without a last output field, else those around its record. -/
def RingView.PinsTogether (v : RingView) : Prop :=
  match v.last with
  | none   => ∀ r ∈ v.ring, r.pinned = false
  | some n => PinsAround n v.ring

/-- The place of a record behind others that do not carry its number. -/
theorem ringPlace_append_cons {n : Nat} {before back : List FieldRecord} {x : FieldRecord} (hx : x.num = n)
    (hb : ∀ r ∈ before, r.num ≠ n) : ringPlace n (before ++ x :: back) = before.length := by
  unfold ringPlace
  rw [List.findIdx_append, List.findIdx_eq_length_of_false (xs := before) (by simpa using hb), List.findIdx_cons]
  simp [hx]

theorem standsFast_iff (r : FieldRecord) : standsFast r = true ↔ r.pinned = true ∧ r.state = .complete := by
  simp [standsFast]

/-- Around a centre every pinned record is COMPLETE. -/
theorem PinsAround.complete {n : Nat} {ring : List FieldRecord} (h : PinsAround n ring) :
    ∀ r ∈ ring, r.pinned = true → r.state = .complete := by
  obtain ⟨before, x, y, back, rfl, hb, hx, hy, hk, -⟩ := h
  intro r hr hp
  rcases List.mem_append.1 hr with hr | hr
  · rcases hb with rfl | ⟨front, q, rfl, hq, hf⟩
    · simp at hr
    · rcases List.mem_append.1 hr with hr | hr
      · simp [hf r hr] at hp
      · rw [List.mem_singleton.1 hr]; exact ((standsFast_iff q).1 hq).2
  · rcases List.mem_cons.1 hr with rfl | hr
    · exact ((standsFast_iff _).1 hx).2
    · rcases List.mem_cons.1 hr with rfl | hr
      · exact ((standsFast_iff _).1 hy).2
      · simp [hk r hr] at hp

/-- Before the centre, the record one place before it is the pinned one. -/
theorem PredecessorPinned.pinned_iff {l : List FieldRecord} (h : PredecessorPinned l) {i : Nat} {r : FieldRecord}
    (hi : l[i]? = some r) : r.pinned = true ↔ i + 1 = l.length := by
  rcases h with rfl | ⟨front, q, rfl, hq, hf⟩
  · simp at hi
  · rw [List.getElem?_append] at hi
    simp only [List.length_append, List.length_singleton]
    split at hi
    · have := hf r (List.mem_of_getElem? hi)
      simp only [this, Bool.false_eq_true, false_iff]
      omega
    · obtain ⟨hl, he⟩ := List.getElem?_eq_some_iff.1 hi
      simp only [List.length_singleton] at hl
      have hr : r = q := by rw [← he]; simp
      rw [hr, ((standsFast_iff q).1 hq).1]
      simp only [true_iff]
      omega

/-- Around a centre the places pinned are its own and the two beside it. -/
theorem PinsAround.pinned_iff {n : Nat} {ring : List FieldRecord} (h : PinsAround n ring) :
    ∃ p, ringPlace n ring = p ∧ p + 1 < ring.length ∧
      ∀ i r, ring[i]? = some r → (r.pinned = true ↔ i + 1 = p ∨ i = p ∨ i = p + 1) := by
  obtain ⟨before, x, y, back, rfl, hb, hx, hy, hk, hn, hne⟩ := h
  refine ⟨before.length, ringPlace_append_cons hn hne, by simp, fun i r hi => ?_⟩
  rw [List.getElem?_append] at hi
  split at hi
  · rw [hb.pinned_iff hi]; omega
  · obtain hj | hj | ⟨j, hj⟩ : i - before.length = 0 ∨ i - before.length = 1 ∨ ∃ j, i - before.length = j + 2 := by
      rcases i - before.length with _ | _ | j
      · exact .inl rfl
      · exact .inr (.inl rfl)
      · exact .inr (.inr ⟨j, rfl⟩)
    · rw [hj] at hi
      have : r = x := by simpa using hi.symm
      rw [this, ((standsFast_iff x).1 hx).1]; simp only [true_iff]; omega
    · rw [hj] at hi
      have : r = y := by simpa using hi.symm
      rw [this, ((standsFast_iff y).1 hy).1]; simp only [true_iff]; omega
    · rw [hj] at hi
      have := hk r (List.mem_of_getElem? (i := j) (by simpa using hi))
      simp only [this, Bool.false_eq_true, false_iff]; omega

/-- The ring around a centre, from the places pinned. -/
theorem pinsAround_of_pinned {n p : Nat} {ring : List FieldRecord} (hp : ringPlace n ring = p)
    (hl : p + 1 < ring.length) (hc : ∀ r ∈ ring, r.pinned = true → r.state = .complete)
    (h : ∀ i r, ring[i]? = some r → (r.pinned = true ↔ i + 1 = p ∨ i = p ∨ i = p + 1)) : PinsAround n ring := by
  have hfast : ∀ i r, ring[i]? = some r → (i + 1 = p ∨ i = p ∨ i = p + 1) → standsFast r = true := fun i r hi hq =>
    (standsFast_iff r).2 ⟨(h i r hi).2 hq, hc r (List.mem_of_getElem? hi) ((h i r hi).2 hq)⟩
  have hfree : ∀ i r, ring[i]? = some r → ¬ (i + 1 = p ∨ i = p ∨ i = p + 1) → r.pinned = false :=
    fun i r hi hq => by simpa using mt (h i r hi).1 hq
  have hx : ring[p]? = some ring[p] := List.getElem?_eq_getElem _
  have hy : ring[p + 1]? = some ring[p + 1] := List.getElem?_eq_getElem _
  refine ⟨ring.take p, ring[p], ring[p + 1], ring.drop (p + 2), ?_, ?_, hfast _ _ hx (by simp),
    hfast _ _ hy (by simp), ?_, ?_, ?_⟩
  · rw [List.getElem_cons_drop, List.getElem_cons_drop, List.take_append_drop]
  · rcases p with _ | q
    · exact .inl (by simp)
    · refine .inr ⟨ring.take q, ring[q], ?_, hfast q _ (List.getElem?_eq_getElem _) (by simp), fun r hr => ?_⟩
      · rw [List.take_append_getElem]
      · obtain ⟨i, hi, rfl⟩ := List.mem_take_iff_getElem.1 hr
        exact hfree i _ (List.getElem?_eq_getElem _) (by omega)
  · intro r hr
    obtain ⟨i, hi, rfl⟩ := List.mem_drop_iff_getElem.1 hr
    exact hfree _ _ (List.getElem?_eq_getElem _) (by omega)
  · have := List.findIdx_getElem (p := fun r : FieldRecord => r.num == n) (xs := ring) (w := by
      have : ring.findIdx (fun r => r.num == n) = p := hp
      omega)
    have e : ring.findIdx (fun r => r.num == n) = p := hp
    simpa [e] using this
  · intro r hr
    obtain ⟨i, hi, rfl⟩ := List.mem_take_iff_getElem.1 hr
    have e : ring.findIdx (fun r => r.num == n) = p := hp
    have := List.not_of_lt_findIdx (p := fun r : FieldRecord => r.num == n) (xs := ring) (i := i) (by omega)
    simpa using this

theorem pinsStandTogether_iff (ch : Channel) : PinsStandTogether ch ↔ (ringView ch).PinsTogether := by
  unfold PinsStandTogether RingView.PinsTogether
  show _ ∧ (match ch.ctl.lastOutput with | none => _ | some n => _) ↔
    match ch.ctl.lastOutput with | none => _ | some n => _
  cases ch.ctl.lastOutput with
  | none => exact ⟨fun h => h.2, fun h => ⟨fun r hr hp => by simp [h r hr] at hp, h⟩⟩
  | some n =>
    exact ⟨fun ⟨hc, p, hp, hl, h⟩ => pinsAround_of_pinned hp hl hc h, fun h => ⟨h.complete, h.pinned_iff⟩⟩

/-! ### Moves and pins -/

theorem standsFast_edit {f : FieldRecord → FieldRecord} (hf : EditsInPlace f) {r : FieldRecord}
    (h : standsFast r = true) : standsFast (f r) = true := by
  obtain ⟨hp, hc⟩ := (standsFast_iff r).1 h
  exact (standsFast_iff _).2 ⟨by rw [hf.pinned, hp], hf.complete hc⟩

theorem PredecessorPinned.edit {f : FieldRecord → FieldRecord} (hf : EditsInPlace f) {l : List FieldRecord}
    (h : PredecessorPinned l) : PredecessorPinned (l.map f) := by
  rcases h with rfl | ⟨front, q, rfl, hq, hr⟩
  · exact .inl rfl
  · exact .inr ⟨front.map f, f q, by simp, standsFast_edit hf hq, by simpa [hf.pinned] using hr⟩

theorem PinsAround.edit {f : FieldRecord → FieldRecord} (hf : EditsInPlace f) {n : Nat} {ring : List FieldRecord}
    (h : PinsAround n ring) : PinsAround n (ring.map f) := by
  obtain ⟨before, x, y, back, rfl, hb, hx, hy, hk, hn, hne⟩ := h
  exact ⟨before.map f, f x, f y, back.map f, by simp, hb.edit hf, standsFast_edit hf hx, standsFast_edit hf hy,
    by simpa [hf.pinned] using hk, by rw [hf.num, hn], by simpa [hf.num] using hne⟩

theorem PredecessorPinned.leave {l l' : List FieldRecord} (hl : RecordsLeave l l') (h : PredecessorPinned l) :
    PredecessorPinned l' := by
  rcases h with rfl | ⟨front, q, rfl, hq, hr⟩
  · exact .inl (List.sublist_nil.1 hl.1)
  · obtain ⟨front', last, rfl, hf, hs⟩ := hl.append_inv
    obtain rfl := hs.singleton_inv hq
    exact .inr ⟨front', q, rfl, hq, fun r hm => hr r (hf.1.subset hm)⟩

theorem PinsAround.leave {n : Nat} {ring ring' : List FieldRecord} (hl : RecordsLeave ring ring')
    (h : PinsAround n ring) : PinsAround n ring' := by
  obtain ⟨before, x, y, back, rfl, hb, hx, hy, hk, hn, hne⟩ := h
  obtain ⟨before', rest, rfl, hbef, hrest⟩ := hl.append_inv
  obtain ⟨rest', rfl, hrest'⟩ := hrest.cons_inv hx
  obtain ⟨back', rfl, hback⟩ := hrest'.cons_inv hy
  exact ⟨before', x, y, back', rfl, hb.leave hbef, hx, hy, fun r hm => hk r (hback.1.subset hm), hn,
    fun r hm => hne r (hbef.1.subset hm)⟩

theorem standsFast_withPin {r : FieldRecord} (h : r.state = .complete) : standsFast (withPin true r) = true := by
  simp [standsFast, withPin, h]

/-- R40: after release the pins stand around the new centre, where no COMPLETE record follows one that is not. -/
theorem pinsAround_releasedRing {front back : List FieldRecord} {x y : FieldRecord}
    (hf : ∀ r ∈ front, r.state = .complete) (hne : ∀ r ∈ front, r.num ≠ x.num) (hx : x.state = .complete)
    (hy : y.state = .complete) : PinsAround x.num (releasedRing x.num (front ++ x :: y :: back)) := by
  have hback : ∀ r ∈ back.map (withPin false), r.pinned = false := fun r hr => by
    obtain ⟨z, -, rfl⟩ := List.mem_map.1 hr; rfl
  rw [releasedRing_eq, ringPlace_append_cons rfl hne]
  rcases List.eq_nil_or_concat' front with rfl | ⟨older, q, rfl⟩
  · rw [List.nil_append, List.length_nil, releasedFrom_centre]
    exact ⟨[], _, _, _, rfl, .inl rfl, standsFast_withPin hx, standsFast_withPin hy, hback, rfl, by simp⟩
  · have hq : q.state = .complete := hf q (by simp)
    rw [List.append_assoc, releasedFrom_front (fun r hr => hf r (by simp [hr])) (by simp), List.length_append,
      List.length_singleton, Nat.zero_add, List.singleton_append, releasedFrom_predecessor, releasedFrom_centre]
    exact ⟨[withPin true q], _, _, _, rfl, .inr ⟨[], _, rfl, standsFast_withPin hq, by simp⟩, standsFast_withPin hx,
      standsFast_withPin hy, hback, rfl, by simpa [withPin] using hne q (by simp)⟩

/-- Every move keeps the pins together, in a ring of the right shape with its numbers in order. -/
theorem RingMove.keeps_pinsTogether {v w : RingView} (hs : v.Shaped) (hn : v.Numbered) (hv : v.PinsTogether)
    (h : RingMove v w) : w.PinsTogether := by
  unfold RingView.PinsTogether at hv ⊢
  cases h with
  | edit hf =>
    dsimp only
    cases hl : v.last with
    | none => rw [hl] at hv; simpa [hf.pinned] using hv
    | some n => rw [hl] at hv; exact hv.edit hf
  | leave hr =>
    dsimp only
    cases hl : v.last with
    | none => rw [hl] at hv; exact fun r hm => hv r (hr.1.subset hm)
    | some n => rw [hl] at hv; exact hv.leave hr
  | close _ => exact hv
  | flush _ => simp
  | @take front back x y hr hx hy =>
    have horder := hs.order
    have hnodup := hn.nodup
    rw [hr] at horder hnodup
    rw [List.map_append] at hnodup
    obtain ⟨-, -, hfront⟩ := List.pairwise_append.1 horder
    obtain ⟨-, -, hne⟩ := List.nodup_append.1 hnodup
    show PinsAround x.num (releasedRing x.num v.ring)
    rw [hr]
    exact pinsAround_releasedRing (fun r hm => hfront r hm x (by simp))
      (fun r hm => hne r.num (List.mem_map_of_mem hm) x.num (by simp)) hx hy

/-! ### An accepted field start (R4, R34) -/

/-- With fewer than 8 records a slot is free, and the lowest is in no record (R33). -/
theorem lowestFreeSlot_notMem {ring : List FieldRecord} (h : ring.length < 8) :
    lowestFreeSlot ring ∉ ring.map FieldRecord.slot := by
  unfold lowestFreeSlot
  cases hf : allSlots.find? (fun i => !ring.any (fun r => r.slot == i)) with
  | some i =>
    have := List.find?_some hf
    simp only [Bool.not_eq_true', List.any_eq_false, beq_iff_eq] at this
    simpa using this
  | none =>
    have hall : ∀ i ∈ allSlots, i ∈ ring.map FieldRecord.slot := fun i hi => by
      have := List.find?_eq_none.1 hf i hi
      simp only [Bool.not_eq_true', Bool.not_eq_false, List.any_eq_true, beq_iff_eq] at this
      simpa using this
    have hd : allSlots.Nodup := by decide
    have := (hd.subperm hall).length_le
    simp [allSlots] at this
    omega

/-- Reclaim leaves room for a record: of 8 records one is not pinned (R34, R39). -/
theorem length_reclaimedRing {ring : List FieldRecord} (hl : ring.length ≤ 8)
    (hp : ring.countP FieldRecord.pinned ≤ 3) : (reclaimedRing ring).length < 8 := by
  unfold reclaimedRing
  split
  · split
    · next h8 hnone =>
      have hall : ring.countP FieldRecord.pinned = ring.length := by
        rw [List.countP_eq_length]
        simpa [oldestUnpinned] using hnone
      omega
    · next r hr =>
      have hm : r ∈ ring := List.mem_of_find?_eq_some hr
      have := List.length_pos_of_mem hm
      rw [List.length_erase_of_mem hm]; omega
  · omega

/-- The ring after reclaim, with the field in progress not accepted. -/
theorem RingView.Shaped.reclaimed {v : RingView} (hv : v.Shaped) :
    ({ v with ring := reclaimedRing v.ring } : RingView).Shaped :=
  RingMove.keeps_shaped _ _ hv (.leave (recordsLeave_reclaimedRing _))

/-- An accepted field start keeps the ring's shape. -/
theorem RingAccept.keeps_shaped {v w : RingView} (hv : v.Shaped) (h : RingAccept v w) : w.Shaped := by
  obtain ⟨ha, offset, flywheel, rfl⟩ := h
  have hlen := length_reclaimedRing hv.length hv.pins
  obtain ⟨-, hslots, hpins, horder, hidle⟩ := hv.reclaimed
  refine ⟨by simp; omega, ?_, ?_, ?_, by simp⟩
  · rw [List.map_append]
    refine hslots.append (by simp) ?_
    simpa [newRecord] using lowestFreeSlot_notMem hlen
  · simpa [newRecord, List.countP_append] using hpins
  · rw [List.pairwise_append]
    exact ⟨horder, by simp, fun r hr _ _ => hidle ha r hr⟩

/-- An accepted field start keeps the dropout lists in order: the new record's is empty (R30). -/
theorem RingAccept.keeps_listsInOrder {v w : RingView} (hv : v.ListsInOrder) (h : RingAccept v w) : w.ListsInOrder := by
  obtain ⟨-, offset, flywheel, rfl⟩ := h
  intro r hr
  rcases List.mem_append.1 hr with hr | hr
  · exact hv r ((recordsLeave_reclaimedRing _).1.subset hr)
  · rw [List.mem_singleton.1 hr]; exact ⟨by simp [newRecord], by simp [newRecord]⟩

/-- The field count's advance makes every record one field older (R4). -/
theorem age_nextField {count num : Nat} (hc : count < 4294967296) (hn : num < 4294967296)
    (hy : (count + 4294967296 - num) % 4294967296 < 4294967295) :
    (nextField count + 4294967296 - num) % 4294967296 = (count + 4294967296 - num) % 4294967296 + 1 := by
  unfold nextField fieldModulus
  omega

/-- An accepted field start keeps the numbers in order, in a ring of records that are young enough. -/
theorem RingAccept.keeps_numbered {v w : RingView} (hv : v.Numbered) (hy : v.Young) (h : RingAccept v w) :
    w.Numbered := by
  obtain ⟨-, offset, flywheel, rfl⟩ := h
  have hsub := (recordsLeave_reclaimedRing v.ring).1
  obtain ⟨hcount, hbelow, hnodup, horder⟩ := hv
  have holder : ∀ r ∈ reclaimedRing v.ring, r.num < 4294967296 ∧ 1 ≤ v.age r ∧
      (nextField v.fieldCount + 4294967296 - r.num) % 4294967296 = v.age r + 1 := fun r hr =>
    have hb := hbelow r (hsub.subset hr)
    ⟨hb.1, hb.2, age_nextField hcount hb.1 (hy r (hsub.subset hr))⟩
  have hnew : (nextField v.fieldCount + 4294967296 - v.fieldCount) % 4294967296 = 1 := by
    unfold nextField fieldModulus; omega
  refine ⟨Nat.mod_lt _ (by decide), fun r hr => ?_, ?_, ?_⟩
  · rcases List.mem_append.1 hr with hr | hr
    · obtain ⟨h1, h2, h3⟩ := holder r hr
      exact ⟨h1, by show 1 ≤ (nextField v.fieldCount + 4294967296 - r.num) % 4294967296; omega⟩
    · rw [List.mem_singleton.1 hr]
      exact ⟨hcount, by show 1 ≤ (nextField v.fieldCount + 4294967296 - v.fieldCount) % 4294967296; omega⟩
  · rw [List.map_append]
    refine (hnodup.sublist (hsub.map _)).append (by simp) ?_
    suffices ∀ r ∈ reclaimedRing v.ring, r.num ≠ v.fieldCount by simpa [newRecord] using this
    intro r hr e
    obtain ⟨-, h2, -⟩ := holder r hr
    unfold RingView.age at h2
    rw [e] at h2
    omega
  · rw [List.pairwise_append]
    refine ⟨(horder.sublist hsub).imp_of_mem fun {a b} ha hb hlt => ?_, by simp, fun a ha b hb => ?_⟩
    · have h1 := (holder a ha).2.2
      have h2 := (holder b hb).2.2
      show (nextField v.fieldCount + 4294967296 - b.num) % 4294967296 <
        (nextField v.fieldCount + 4294967296 - a.num) % 4294967296
      omega
    · obtain ⟨-, h2, h3⟩ := holder a ha
      rw [List.mem_singleton.1 hb]
      show (nextField v.fieldCount + 4294967296 - v.fieldCount) % 4294967296 <
        (nextField v.fieldCount + 4294967296 - a.num) % 4294967296
      omega

/-- A record behind the others does not matter to the pins, unpinned as it is. -/
theorem PinsAround.append {n : Nat} {ring : List FieldRecord} (h : PinsAround n ring) {r : FieldRecord}
    (hr : r.pinned = false) : PinsAround n (ring ++ [r]) := by
  obtain ⟨before, x, y, back, rfl, hb, hx, hy, hk, hn⟩ := h
  refine ⟨before, x, y, back ++ [r], by simp, hb, hx, hy, fun z hz => ?_, hn⟩
  rcases List.mem_append.1 hz with hz | hz
  · exact hk z hz
  · rw [List.mem_singleton.1 hz]; exact hr

/-- An accepted field start keeps the pins together. -/
theorem RingAccept.keeps_pinsTogether {v w : RingView} (hv : v.PinsTogether) (h : RingAccept v w) : w.PinsTogether := by
  obtain ⟨-, offset, flywheel, rfl⟩ := h
  have hleave := recordsLeave_reclaimedRing v.ring
  unfold RingView.PinsTogether at hv ⊢
  dsimp only
  cases hl : v.last with
  | none =>
    rw [hl] at hv
    intro r hr
    rcases List.mem_append.1 hr with hr | hr
    · exact hv r (hleave.1.subset hr)
    · rw [List.mem_singleton.1 hr]; rfl
  | some n => rw [hl] at hv; exact (hv.leave hleave).append rfl

/-! ### A step -/

/-- What one step does to a ring keeps its shape. -/
theorem RingStep.keeps_shaped {v w : RingView} (h : RingStep v w) (hv : v.Shaped) : w.Shaped := by
  rcases h with h | ⟨x, h, ha⟩
  · exact h.keeps RingMove.keeps_shaped hv
  · exact ha.keeps_shaped (h.keeps RingMove.keeps_shaped hv)

/-- What one step does to a ring keeps its dropout lists in order. -/
theorem RingStep.keeps_listsInOrder {v w : RingView} (h : RingStep v w) (hv : v.ListsInOrder) : w.ListsInOrder := by
  rcases h with h | ⟨x, h, ha⟩
  · exact h.keeps RingMove.keeps_listsInOrder hv
  · exact ha.keeps_listsInOrder (h.keeps RingMove.keeps_listsInOrder hv)

/-- Numbers in order and pins together, of which the moves need the shape and an accepted field start the ages. -/
structure RingView.Ordered (v : RingView) : Prop where
  shaped   : v.Shaped
  numbered : v.Numbered
  pins     : v.PinsTogether
  young    : v.Young

theorem RingMove.keeps_ordered (v w : RingView) (hv : v.Ordered) (h : RingMove v w) : w.Ordered :=
  ⟨h.keeps_shaped _ _ hv.shaped, h.keeps_numbered hv.numbered, h.keeps_pinsTogether hv.shaped hv.numbered hv.pins,
    h.keeps_young hv.young⟩

/-- What one step does to a ring keeps its numbers in order and its pins together. -/
theorem RingStep.keeps_ordered {v w : RingView} (h : RingStep v w) (hv : v.Ordered) : w.Numbered ∧ w.PinsTogether := by
  rcases h with h | ⟨x, h, ha⟩
  · have hw := h.keeps RingMove.keeps_ordered hv
    exact ⟨hw.numbered, hw.pins⟩
  · have hx := h.keeps RingMove.keeps_ordered hv
    exact ⟨ha.keeps_numbered hx.numbered hx.young, ha.keeps_pinsTogether hx.pins⟩

end Sys2Proof.Machine
end

section
/-! SUPPORT. Dropout lists under offers (R37), and the records that an operation edits in place. -/

namespace Sys2Proof.Machine

open Sys2Proof

/-! ### The dropout list (R37) -/

/-- An entry is placed behind the entries below it and before the others. -/
theorem placeDropout_eq (d : Dropout) (ds : List Dropout) : placeDropout d ds =
    ds.takeWhile (fun x => decide (x.line < d.line)) ++ d :: ds.dropWhile (fun x => decide (x.line < d.line)) := by
  induction ds with
  | nil => rfl
  | cons x ds ih =>
    unfold placeDropout
    by_cases h : x.line < d.line
    · rw [if_pos h, ih, List.takeWhile_cons_of_pos (by simpa using h), List.dropWhile_cons_of_pos (by simpa using h)]
      rfl
    · rw [if_neg h, List.takeWhile_cons_of_neg (by simpa using h), List.dropWhile_cons_of_neg (by simpa using h)]
      rfl

/-- A list with an entry placed holds that entry and those it held. -/
theorem placeDropout_perm (d : Dropout) (ds : List Dropout) : (placeDropout d ds).Perm (d :: ds) := by
  rw [placeDropout_eq]
  refine List.perm_middle.trans ?_
  rw [List.takeWhile_append_dropWhile]

/-- A line placed in a list that does not hold it leaves the list in ascending order. -/
theorem pairwise_placeDropout {d : Dropout} {ds : List Dropout} (h : ds.Pairwise (fun a b => a.line < b.line))
    (hd : ∀ x ∈ ds, x.line ≠ d.line) : (placeDropout d ds).Pairwise (fun a b => a.line < b.line) := by
  induction ds with
  | nil => simp [placeDropout]
  | cons x ds ih =>
    obtain ⟨hx, hs⟩ := List.pairwise_cons.1 h
    have hne := hd x (by simp)
    unfold placeDropout
    split
    · next hlt =>
      refine List.pairwise_cons.2 ⟨fun y hy => ?_, ih hs fun y hy => hd y (by simp [hy])⟩
      rcases List.mem_cons.1 ((placeDropout_perm d ds).mem_iff.1 hy) with rfl | hy
      · exact hlt
      · exact hx y hy
    · next hge =>
      refine List.pairwise_cons.2 ⟨fun y hy => ?_, h⟩
      rcases List.mem_cons.1 hy with rfl | hy
      · omega
      · have := hx y hy; omega

/-- A new cause leaves the entry's line. -/
@[simp] theorem recause_line (d : Dropout) (k : Nat) (cause : Cause) : (recause d k cause).line = d.line := by
  unfold recause; split <;> rfl

/-- An offer taken leaves the list in order. -/
theorem offerDropout_inOrder {ds ds' : List Dropout} {k : Nat} {cause : Cause} (h : DropoutsInOrder ds)
    (ho : offerDropout ds k cause = some ds') : DropoutsInOrder ds' := by
  obtain ⟨hl, hs⟩ := h
  unfold offerDropout at ho
  split at ho
  · cases ho
    exact ⟨by simpa using hl, by simpa [List.pairwise_map] using hs⟩
  · next hn =>
    split at ho
    · cases ho
      refine ⟨?_, pairwise_placeDropout hs (by simpa using hn)⟩
      rw [(placeDropout_perm _ _).length_eq, List.length_cons]; omega
    · cases ho

/-- A record offered a dropout: its list as the offer leaves it, or its damaged flag set (R20, R37). -/
theorem offerToRecord_cases (k : Nat) (cause : Cause) (r : FieldRecord) :
    (∃ ds, offerDropout r.dropouts k cause = some ds ∧
      offerToRecord k cause r = ({ r with dropouts := ds }, false)) ∨
    (offerDropout r.dropouts k cause = none ∧
      offerToRecord k cause r = ({ r with damaged := true }, !r.damaged)) := by
  unfold offerToRecord
  cases offerDropout r.dropouts k cause with
  | none => exact .inr ⟨rfl, rfl⟩
  | some ds => exact .inl ⟨ds, rfl, rfl⟩

/-! ### Edits in place -/

/-- A change of fields that the ring's rules do not read. -/
theorem editsInPlace_of_eq {f : FieldRecord → FieldRecord} (h : ∀ r, (f r).num = r.num ∧ (f r).slot = r.slot ∧
    (f r).pinned = r.pinned ∧ (f r).state = r.state ∧ (f r).dropouts = r.dropouts) : EditsInPlace f :=
  ⟨fun r => (h r).1, fun r => (h r).2.1, fun r => (h r).2.2.1, fun r => .inl (h r).2.2.2.1,
    fun r hr => (h r).2.2.2.2 ▸ hr⟩

/-- A record that becomes COMPLETE (R36). -/
theorem editsInPlace_complete : EditsInPlace (fun r => { r with state := .complete }) :=
  ⟨fun _ => rfl, fun _ => rfl, fun _ => rfl, fun _ => .inr rfl, fun _ h => h⟩

/-- A record offered a dropout (R37). -/
theorem editsInPlace_offerToRecord (k : Nat) (cause : Cause) :
    EditsInPlace (fun r => (offerToRecord k cause r).1) := by
  constructor <;> intro r <;> rcases offerToRecord_cases k cause r with ⟨ds, ho, e⟩ | ⟨ho, e⟩ <;> rw [e]
  case state.inl => exact .inl rfl
  case state.inr => exact .inl rfl
  case dropouts.inl => exact fun h => offerDropout_inOrder h ho
  case dropouts.inr => exact fun h => h

/-- An edit of some records only. -/
theorem EditsInPlace.ite {f : FieldRecord → FieldRecord} (hf : EditsInPlace f) (p : FieldRecord → Prop)
    [DecidablePred p] : EditsInPlace (fun r => if p r then f r else r) where
  num r := by by_cases h : p r <;> simp [h, hf.num]
  slot r := by by_cases h : p r <;> simp [h, hf.slot]
  pinned r := by by_cases h : p r <;> simp [h, hf.pinned]
  state r := by by_cases h : p r <;> simp [h, hf.state]
  dropouts r hr := by by_cases h : p r <;> simp [h, hf.dropouts r, hr]

/-- A channel whose ring alone, of what the ring's rules read, is edited in place. -/
theorem ringMoves_of_map {ch ch' : Channel} {f : FieldRecord → FieldRecord}
    (h : ringView ch' = { ringView ch with ring := ch.ring.map f }) (hf : EditsInPlace f) :
    RingMoves (ringView ch) (ringView ch') :=
  h ▸ .single (.edit hf)

/-- A change of the records with a number. -/
theorem ringMoves_modRecord {ch ch' : Channel} {num : Nat} {f : FieldRecord → FieldRecord}
    (h : ringView ch' = { ringView ch with ring := modRecord num f ch.ring }) (hf : EditsInPlace f) :
    RingMoves (ringView ch) (ringView ch') :=
  ringMoves_of_map h (hf.ite (fun r => r.num = num))

/-- A change of the FILLING record. -/
theorem ringMoves_modFilling {ch ch' : Channel} {f : FieldRecord → FieldRecord}
    (h : ringView ch' = { ringView ch with ring := modFilling f ch.ring }) (hf : EditsInPlace f) :
    RingMoves (ringView ch) (ringView ch') :=
  ringMoves_of_map h (hf.ite (fun r => r.state = .filling))

/-! ### The operations of a channel -/

/-- A dropout offered to a record edits it (R37, R38). -/
theorem offerToRing_ringMoves (num k : Nat) (cause : Cause) (ch : Channel) :
    RingMoves (ringView ch) (ringView (offerToRing num k cause ch)) := by
  unfold offerToRing
  split
  · exact .refl
  · exact ringMoves_modRecord rfl (editsInPlace_offerToRecord k cause)

/-- A dropout of the field in progress (R19). -/
theorem receiverDropout_ringMoves (k : Nat) (cause : Cause) (ch : Channel) :
    RingMoves (ringView ch) (ringView (receiverDropout k cause ch)) := by
  unfold receiverDropout
  split
  · exact offerToRing_ringMoves _ _ _ _
  · exact .refl

/-- A line offered to the buffer (R21). -/
theorem offerLine_ringMoves (l : BufLine) (ch : Channel) : RingMoves (ringView ch) (ringView (offerLine l ch)) := by
  unfold offerLine
  split
  · exact .refl
  · split
    · exact receiverDropout_ringMoves _ _ _
    · exact receiverDropout_ringMoves _ _ (countDropout ch)

/-- An active line judged (R18). -/
theorem judgeLine_ringMoves (k : Nat) (line : LineIn) (ch : Channel) :
    RingMoves (ringView ch) (ringView (judgeLine k line ch)) := by
  unfold judgeLine
  split
  · exact offerLine_ringMoves _ _
  · exact (receiverDropout_ringMoves k .timing (countDropout ch)).trans (offerLine_ringMoves _ _)

theorem ringView_receiveLine (line : LineIn) (ch : Channel) : ringView (receiveLine line ch) = ringView ch := by
  unfold receiveLine
  generalize assembleLine ch.recv.fieldStd line = words
  rfl

theorem ringView_emptyAssembly (ch : Channel) : ringView (emptyAssembly ch) = ringView ch := rfl

/-- A line at its end (R17, R18, R23). -/
theorem endLine_ringMoves (line : LineIn) (ch : Channel) : RingMoves (ringView ch) (ringView (endLine line ch)) := by
  unfold endLine
  split
  · unfold handOn
    split
    · exact .refl
    · split
      · exact .refl
      · exact .refl
  · split
    · rw [ringView_emptyAssembly]
      split
      · rw [← ringView_receiveLine line ch]
        exact judgeLine_ringMoves _ line (receiveLine line ch)
      · rw [ringView_receiveLine]
    · exact .refl

/-- The closing of the vote (R16). -/
theorem closeVote_ringMoves (ch : Channel) : RingMoves (ringView ch) (ringView (closeVote ch)) := by
  unfold closeVote
  dsimp only
  split
  · exact ringMoves_modFilling rfl (editsInPlace_of_eq fun _ => ⟨rfl, rfl, rfl, rfl, rfl⟩)
  · exact .refl

/-- The vote at a line start (R16). -/
theorem voteAtLine_ringMoves (w : TimingWord) (n : Nat) (ch : Channel) :
    RingMoves (ringView ch) (ringView (voteAtLine w n ch)) := by
  unfold voteAtLine
  split
  · exact .refl
  · split
    · exact closeVote_ringMoves ch
    · split
      · split
        · exact closeVote_ringMoves (joinVote w.parity ch)
        · exact .refl
      · exact .refl

/-- An ordinary line start (R11). -/
theorem nextLine_ringMoves (w : TimingWord) (ch : Channel) : RingMoves (ringView ch) (ringView (nextLine w ch)) :=
  voteAtLine_ringMoves w _ { ch with recv := { ch.recv with lineNo := ch.recv.lineNo + 1, lineValid := w.valid } }

/-- What each step of a fold moves, the fold moves. -/
theorem foldl_ringMoves {α : Type} {f : Channel → α → Channel}
    (hf : ∀ ch a, RingMoves (ringView ch) (ringView (f ch a))) (l : List α) (ch : Channel) : RingMoves (ringView ch) (ringView (l.foldl f ch)) := by
  induction l generalizing ch with
  | nil => exact .refl
  | cons a l ih => exact (hf ch a).trans (ih _)

/-- The waiting lines of a closing field (R14). -/
theorem discardBuffer_ringMoves (ch : Channel) : RingMoves (ringView ch) (ringView (discardBuffer ch)) := by
  refine foldl_ringMoves (fun ch l => ?_) ch.recv.buffer { ch with recv := { ch.recv with buffer := [] } }
  unfold discardWaiting
  split
  · exact receiverDropout_ringMoves _ _ _
  · exact receiverDropout_ringMoves _ _ (countDropout ch)

/-- The missing lines of a closing field (R14). -/
theorem shortLines_ringMoves (l : List Nat) (ch : Channel) : RingMoves (ringView ch) (ringView (l.foldl shortLine ch)) :=
  foldl_ringMoves (fun ch k => receiverDropout_ringMoves k .short (countDropout ch)) l ch

/-- The record in progress becomes COMPLETE behind the vote (R36). -/
theorem completeRecord_ringMoves (ch : Channel) :
    RingMoves (ringView ch) (ringView (completeRecord (closeOpenVote ch))) := by
  have hvote : RingMoves (ringView ch) (ringView (closeOpenVote ch)) := by
    unfold closeOpenVote
    split
    · exact .refl
    · exact closeVote_ringMoves ch
  exact hvote.trans (ringMoves_modFilling rfl editsInPlace_complete)

/-- A field end of the tracker edits the newest record (R64). -/
theorem trackFieldEnd_ringMoves (t : Tables) (r : FieldRecord) (r1 r2 : Option FieldRecord) (ch : Channel) :
    RingMoves (ringView ch) (ringView (trackFieldEnd t r r1 r2 ch).1) :=
  ringMoves_modRecord rfl (editsInPlace_of_eq fun _ => ⟨rfl, rfl, rfl, rfl, rfl⟩)

/-- A use counted (R41). -/
theorem advanceUses_ringMoves (num : Nat) (ch : Channel) : RingMoves (ringView ch) (ringView (advanceUses num ch)) :=
  ringMoves_modRecord rfl (editsInPlace_of_eq fun _ => ⟨rfl, rfl, rfl, rfl, rfl⟩)

/-- A write grant counts a line stored (R22). -/
theorem grantWriteTo_ringMoves (ch : Channel) : RingMoves (ringView ch) (ringView (grantWriteTo ch)) := by
  unfold grantWriteTo
  split
  · exact ringMoves_modFilling rfl (editsInPlace_of_eq fun _ => ⟨rfl, rfl, rfl, rfl, rfl⟩)
  · exact .refl

end Sys2Proof.Machine
end

section
/-! SUPPORT. What each operation of the part does to the four rings. -/

namespace Sys2Proof.Machine

open Sys2Proof

/-! ### Rings that stand, and rings moved -/

/-- Nothing that the rules about the rings read differs. -/
def RingsStand (s t : State) : Prop := ∀ d, ringView (t.ch d) = ringView (s.ch d)

/-- Every ring has made moves only. -/
def RingsMove (s t : State) : Prop := ∀ d, RingMoves (ringView (s.ch d)) (ringView (t.ch d))

/-- Every ring has made what one step does. -/
def RingsStep (s t : State) : Prop := ∀ d, RingStep (ringView (s.ch d)) (ringView (t.ch d))

section

variable {s t u : State}

theorem RingsStand.refl (s : State) : RingsStand s s := fun _ => rfl

theorem RingsStand.trans (h : RingsStand s t) (k : RingsStand t u) : RingsStand s u := fun d => (k d).trans (h d)

theorem RingsStand.moves (h : RingsStand s t) : RingsMove s t := fun d => by rw [h d]

theorem RingsMove.refl (s : State) : RingsMove s s := fun _ => .refl

theorem RingsMove.trans (h : RingsMove s t) (k : RingsMove t u) : RingsMove s u := fun d => (h d).trans (k d)

theorem RingsMove.step (h : RingsMove s t) : RingsStep s t := fun d => .inl (h d)

/-- Moves ahead of a step. -/
theorem RingsMove.andThen (h : RingsMove s t) (k : RingsStep t u) : RingsStep s u := fun d =>
  (k d).imp (h d).trans fun ⟨x, hx, ha⟩ => ⟨x, (h d).trans hx, ha⟩

/-- What is no part of the channels is no part of the rings. -/
theorem RingsStand.device (h : RingsStand s t) (hc : u.chans = t.chans) : RingsStand s u := fun d => by
  rw [State.ch_congr hc, h d]

theorem RingsMove.device (h : RingsMove s t) (hc : u.chans = t.chans) : RingsMove s u := fun d => by
  rw [State.ch_congr hc]; exact h d

/-- The rings are held in the channels. -/
theorem ringsStand_of_chans (h : t.chans = s.chans) : RingsStand s t := (RingsStand.refl s).device h

end

section

variable {s : State} {c : Chan} {f : Channel → Channel} {x : Channel}

theorem ringsStand_setCh (h : ringView x = ringView (s.ch c)) : RingsStand s (s.setCh c x) := fun d => by
  by_cases hd : d = c
  · subst hd; rw [State.ch_setCh_same, h]
  · rw [State.ch_setCh_ne _ hd]

theorem ringsStand_modCh (h : ringView (f (s.ch c)) = ringView (s.ch c)) : RingsStand s (s.modCh c f) :=
  ringsStand_setCh h

theorem ringsMove_setCh (h : RingMoves (ringView (s.ch c)) (ringView x)) : RingsMove s (s.setCh c x) := fun d => by
  by_cases hd : d = c
  · subst hd; rw [State.ch_setCh_same]; exact h
  · rw [State.ch_setCh_ne _ hd]

theorem ringsMove_modCh (h : RingMoves (ringView (s.ch c)) (ringView (f (s.ch c)))) : RingsMove s (s.modCh c f) :=
  ringsMove_setCh h

end

theorem ringsStand_eachChan {f : Chan → State → State} (hf : ∀ c s, RingsStand s (f c s)) (s : State) :
    RingsStand s (eachChan f s) :=
  (((hf _ _).trans (hf _ _)).trans (hf _ _)).trans (hf _ _)

/-- What each piece moves, the pieces in a row move. -/
theorem ringsMove_foldl {α : Type} {f : State → α → State} (hf : ∀ s a, RingsMove s (f s a)) (l : List α)
    (s : State) : RingsMove s (l.foldl f s) := by
  induction l generalizing s with
  | nil => exact .refl s
  | cons a l ih => exact (hf s a).trans (ih _)

/-! ### Reports -/

section

variable {c : Chan} {s t : State} {n : Nat} {k : EventKind}

theorem ringsStand_raise : RingsStand s (raise c k n s) := by
  rw [raise_eq_setCh]
  exact ringsStand_setCh rfl

theorem ringsStand_raiseAll : RingsStand s (raiseAll k s) :=
  ringsStand_eachChan (fun _ _ => ringsStand_raise) s

theorem ringsStand_deliverHeld : RingsStand s (deliverHeld c n s) := by
  rw [deliverHeld_eq_setCh]
  exact ringsStand_setCh rfl

/-- An answer to what leaves the rings. -/
theorem RingsStand.answered (h : RingsStand s t) {tag kind : Byte} {code : AnswerCode} {r : Option Reason}
    {l : List Byte} : RingsStand s (answer c tag kind code r l t) :=
  h.trans (ringsStand_setCh rfl)

theorem ringsStand_answer {tag kind : Byte} {code : AnswerCode} {r : Option Reason} {l : List Byte} :
    RingsStand s (answer c tag kind code r l s) :=
  (RingsStand.refl s).answered

end

section

variable (c : Chan) (s : State)

theorem ringsStand_reportWork : RingsStand s (reportWork c s) :=
  (ringsStand_modCh rfl).trans ringsStand_deliverHeld

theorem ringsStand_discardDirective (k : EventKind) : RingsStand s (discardDirective c k s) :=
  (ringsStand_modCh rfl).trans ringsStand_raise

theorem ringsStand_checkLineOf (ws : List LineWord) : RingsStand s (checkLineOf c ws s) := by
  unfold checkLineOf
  split
  · unfold sortPacket
    split
    · unfold joinDirective
      split
      · exact ringsStand_modCh rfl
      · exact ringsStand_discardDirective c s _
    · unfold offerRelay
      split
      · exact ringsStand_modCh rfl
      · exact ringsStand_modCh rfl
  · exact ringsStand_discardDirective c s _

theorem ringsStand_pulseNews (x : Rtu) (f : Family) : RingsStand s (pulseNews x f s) := by
  have hchange : ∀ c s, RingsStand s (familyChange f c s) := fun c s => by
    unfold familyChange
    split
    · exact ringsStand_raise
    · exact .refl s
  unfold pulseNews
  split
  · exact .refl s
  · split
    · exact ringsStand_raiseAll
    · exact ringsStand_raiseAll.trans (ringsStand_eachChan hchange _)

/-! ### The loader and the tracker -/

theorem ringsStand_swapTracker (i : Fin 8) : RingsStand s (swapTracker i c s) := by
  unfold swapTracker
  dsimp only
  split
  · refine .trans (.trans ?_ (ringsStand_modCh rfl)) ringsStand_raise
    exact ringsStand_setCh rfl
  · exact ringsStand_setCh rfl

theorem ringsStand_handSwap (n : Nat) (e : TableEntry) (image : List Byte) : RingsStand s (handSwap n e image c s) := by
  cases e with
  | pattern i => exact ringsStand_swapTracker c s i
  | coef i => exact ringsStand_modCh rfl
  | curve i => exact ringsStand_modCh rfl

theorem ringsStand_swapTable (n : Nat) (e : TableEntry) (tag : Byte) : RingsStand s (swapTable n c e tag s) := by
  have hswap : RingsStand { s with tables := setTableImage s.tables e s.shadow } _ :=
    ringsStand_eachChan (f := handSwap n e s.shadow) (fun c s => ringsStand_handSwap c s n e _) _
  exact RingsStand.answered (RingsStand.device (RingsStand.trans (ringsStand_of_chans rfl) hswap) rfl)

theorem ringsStand_loaderAdvance (n : Nat) : RingsStand s (loaderAdvance n s) := by
  unfold loaderAdvance
  split
  · exact .refl s
  · split
    · exact RingsStand.trans (t := { s with loader := .idle, shadow := [] }) (ringsStand_of_chans rfl)
        ringsStand_raise
    · exact ringsStand_of_chans rfl
  · split
    · exact ringsStand_swapTable _ s n _ _
    · exact .refl s

theorem ringsStand_loaderWork (n : Nat) : RingsStand s (loaderWork n s) := by
  unfold loaderWork
  split
  · exact .refl s
  · exact (ringsStand_loaderAdvance s n).trans (ringsStand_of_chans rfl)

theorem ringsStand_raiseTrackEvent (e : Option EventKind) (n : Nat) : RingsStand s (raiseTrackEvent c e n s) := by
  unfold raiseTrackEvent
  split
  · exact ringsStand_raise
  · exact .refl s

theorem ringsMove_cadenceFieldEnd : RingsMove s (cadenceFieldEnd c s) := by
  unfold cadenceFieldEnd
  split
  · exact .refl s
  · exact (ringsMove_setCh (trackFieldEnd_ringMoves _ _ _ _ _)).trans (ringsStand_raiseTrackEvent c _ _ _).moves

/-! ### A frame that ends -/

theorem ringsStand_leaveFrame : RingsStand s (leaveFrame c s) := by
  unfold leaveFrame
  split
  · exact .refl s
  · next f _ =>
    exact RingsStand.device (t := s.modCh c fun ch => { ch with engine := none, stats := publishFallback f ch.stats })
      (ringsStand_modCh rfl) rfl

theorem ringsStand_abandonFrame : RingsStand s (abandonFrame c s) := by
  unfold abandonFrame
  split
  · exact .refl s
  · exact (ringsStand_leaveFrame c s).trans (ringsStand_modCh rfl)

theorem ringsStand_endFrame : RingsStand s (endFrame c s) := by
  unfold endFrame
  split
  · exact .refl s
  · refine (ringsStand_leaveFrame c s).trans (ringsStand_modCh ?_)
    split <;> rfl

/-! ### The arbiter and the engine -/

theorem ringsMove_arbitrate : RingsMove s (arbitrate s) := by
  rcases arbitrate_cases s with h | ⟨c, slot, l, -, -, h⟩ | ⟨c, src, role, k, -, -, -, h⟩ <;> rw [h]
  · exact .refl s
  · exact RingsMove.device (t := s.modCh c grantWriteTo) (ringsMove_modCh (grantWriteTo_ringMoves _)) rfl
  · exact (RingsStand.device (t := s.modCh c grantReadTo) (ringsStand_modCh rfl) rfl).moves

theorem ringsMove_burstEnded : RingsMove s (burstEnded s) :=
  RingsMove.trans (t := freeArbiter s) (ringsStand_of_chans rfl).moves (ringsMove_arbitrate _)

theorem ringsStand_probeRow (f : Frame) (r : Nat) (b : Built) : RingsStand s (probeRow c f r b s) := by
  unfold probeRow
  split
  · dsimp only
    split
    · exact RingsStand.trans (t := { s with probe := _ }) (ringsStand_of_chans rfl) ringsStand_raise
    · exact .refl s
  · exact .refl s
  · exact .refl s

theorem ringsMove_pumpEngine : RingsMove s (pumpEngine c s) := by
  refine pumpEngine_keeps (P := RingsMove s) (fun t u h hu => ?_) (fun t u h hu => ?_)
    (fun t h => h.trans (ringsMove_arbitrate t)) (.refl s)
  · obtain ⟨f, sc, r, b, -, -, -, -, -, -, -, -, rfl⟩ := buildNext_cases hu
    exact h.trans ((ringsStand_modCh rfl).trans (ringsStand_probeRow c _ f r b)).moves
  · obtain ⟨f, g, -, -, rfl⟩ := turnNext_cases hu
    exact h.trans (ringsStand_modCh rfl).moves

theorem ringsStand_singleWord (slot : Fin 8) (k w field : Nat) (syndrome : Byte) (inhibited : Bool) :
    RingsStand s (singleWord c slot k w field syndrome inhibited s) := by
  unfold singleWord
  dsimp only
  split
  · exact .trans (ringsStand_modCh rfl) ringsStand_raise
  · exact RingsStand.device (t := raise c .eccSingle field _) (.trans (ringsStand_modCh rfl) ringsStand_raise) rfl

/-- A double word may enter a dropout (R56). -/
theorem ringsMove_doubleWord (slot : Fin 8) (k w field num : Nat) (syndrome : Byte) (offer : Bool) :
    RingsMove s (doubleWord c slot k w field num syndrome offer s) := by
  have hcount : RingsStand s (s.modCh c fun ch =>
      { ch with stats := { ch.stats with eccDouble := satAdd ch.stats.eccDouble 1 } }) := ringsStand_modCh rfl
  have hraise := (hcount.trans (ringsStand_raise (c := c) (k := .eccDouble) (n := field))).moves
  unfold doubleWord
  dsimp only
  split
  · refine .trans ?_ (ringsMove_modCh (offerToRing_ringMoves ..))
    exact hraise.device rfl
  · exact hraise.device rfl

theorem ringsMove_checkWord (slot : Fin 8) (k field num : Nat) (offer : Bool) (inhibited : Nat → Bool) (w : Nat) :
    RingsMove s (checkWord c slot k field num offer inhibited s w) := by
  unfold checkWord
  split
  · exact .refl s
  · split
    · exact .refl s
    · exact RingsStand.moves (ringsStand_singleWord c s slot k w field _ _)
    · exact ringsMove_doubleWord c s slot k w field num _ offer

theorem ringsMove_readDelivered (slot : Fin 8) (k num : Nat) (live present : Bool) (strikes : List Strike)
    (read : List Nat) : RingsMove s (readDelivered c slot k num live present strikes read s) := by
  have hcheck : RingsMove s (checkLine c slot k num live present read (strikeLine c slot k strikes s)) :=
    RingsMove.trans (t := strikeLine c slot k strikes s) (ringsStand_of_chans rfl).moves
      (ringsMove_foldl (fun s w => ringsMove_checkWord c s slot k _ num _ _ w) _ _)
  have hhand : ∀ t, RingsStand t (handLine c slot k live t) := fun t => by
    unfold handLine
    split
    · exact ringsStand_modCh rfl
    · exact .refl t
  exact hcheck.trans ((hhand _).trans (ringsStand_of_chans rfl)).moves

/-! ### Records that leave the ring -/

/-- The channel with another ring, and the images of the records in it (R62). -/
def withRing (ring : List FieldRecord) (ch : Channel) : Channel :=
  { ch with
    ring := ring
    cad := { ch.cad with images := ch.cad.images.filter (fun i => (findRecord ring i.num).isSome) } }

theorem removeFromRing_ch (ring : List FieldRecord) (d : Chan) :
    (removeFromRing c ring s).ch d = (s.modCh c (withRing ring)).ch d := rfl

theorem ringView_removeFromRing (ring : List FieldRecord) :
    ringView ((removeFromRing c ring s).ch c) = { ringView (s.ch c) with ring := ring } := by
  rw [removeFromRing_ch, State.ch_modCh_same]
  rfl

theorem removeFromRing_ch_ne {d : Chan} (h : d ≠ c) (ring : List FieldRecord) :
    (removeFromRing c ring s).ch d = s.ch d := by
  rw [removeFromRing_ch, State.ch_modCh_ne _ h]

/-- A state that differs from `s` in channel `c` alone, whose ring has made moves. -/
theorem ringsMove_of_channel {c : Chan} {s t : State} (hne : ∀ d, d ≠ c → t.ch d = s.ch d)
    (h : RingMoves (ringView (s.ch c)) (ringView (t.ch c))) : RingsMove s t := fun d => by
  by_cases hd : d = c
  · subst hd; exact h
  · rw [hne d hd]

/-- A flush, with what takes the channel's last output field away (R43 to R46). -/
theorem ringsMove_flushRing {g : Channel → Channel} {n : Nat} {b : Bool} (hn : n = (s.ch c).fieldCount ∨ n = 0)
    (hg : ∀ ch, ringView ch = { ringView (s.ch c) with ring := [] } → ringView (g ch) = ⟨[], n, b, none⟩) :
    RingsMove s ((flushRing c s).modCh c g) := by
  refine ringsMove_of_channel (c := c) (fun d hd => ?_) ?_
  · rw [State.ch_modCh_ne _ hd]; exact removeFromRing_ch_ne c s hd []
  · rw [State.ch_modCh_same, flushRing, hg _ (ringView_removeFromRing c s [])]
    exact .single (.flush hn)

/-- Input loss (R26, R43): the FILLING record leaves, and the receiver with it. -/
theorem ringsMove_declareLoss : RingsMove s (declareLoss c s) := by
  have hleave : RecordsLeave (s.ch c).ring (ringAfterLoss (s.ch c).ctl.state (s.ch c).ring) := by
    unfold ringAfterLoss
    split <;> exact recordsLeave_filter (by simp +contextual [standsFast])
  have hcomplete : ∀ r ∈ ringAfterLoss (s.ch c).ctl.state (s.ch c).ring, r.state = .complete := by
    unfold ringAfterLoss
    split <;> simp +contextual
  refine RingsMove.trans (t := (removeFromRing c (ringAfterLoss (s.ch c).ctl.state (s.ch c).ring) s).modCh c _)
    (ringsMove_of_channel (c := c) (fun d hd => ?_) ?_) ringsStand_raise.moves
  · rw [State.ch_modCh_ne _ hd, removeFromRing_ch_ne c s hd]
  · rw [State.ch_modCh_same]
    have hview := ringView_removeFromRing c s (ringAfterLoss (s.ch c).ctl.state (s.ch c).ring)
    generalize (removeFromRing c (ringAfterLoss (s.ch c).ctl.state (s.ch c).ring) s).ch c = ch at hview
    refine (Relation.ReflTransGen.single (.leave hleave)).tail ?_
    have hlost : ringView (clearCadence { ch with
        recv := receiverLoss ch.recv, ctl := { ch.ctl with state := stateAfterLoss ch.ctl.state } }) =
        { ringView ch with accepting := false } := rfl
    rw [hlost, hview]
    exact .close (.inr hcomplete)

theorem ringsMove_lossWork : RingsMove s (lossWork c s) := by
  unfold lossWork
  split
  · exact .refl s
  · have hadvance : RingsMove s (lossAdvance c s) := by
      unfold lossAdvance
      dsimp only
      split
      · exact .refl s
      · split
        · exact ringsMove_declareLoss c s
        · exact (ringsStand_modCh rfl).moves
    exact hadvance.trans (ringsStand_modCh rfl).moves

/-! ### The Channel Controller -/

/-- A centre taken (R128): release runs, and its use is counted. -/
theorem ringsMove_takeCentre {front back : List FieldRecord} {x y : FieldRecord}
    (h : (s.ch c).ring = front ++ x :: y :: back) (hx : x.state = .complete) (hy : y.state = .complete) :
    RingsMove s (takeCentre c x.num s) := by
  refine RingsMove.trans (t := release c x.num (s.modCh c fun ch =>
      { ch with ctl := { ch.ctl with lastOutput := some x.num } }))
    (ringsMove_of_channel (c := c) (fun d hd => ?_) (.single ?_)) (ringsMove_modCh (advanceUses_ringMoves _ _))
  · exact (removeFromRing_ch_ne c _ hd _).trans (State.ch_modCh_ne s hd _)
  · rw [release, ringView_removeFromRing, State.ch_modCh_same]
    exact .take (v := ringView (s.ch c)) h hx hy

/-- A record of the eligible list stands in the ring, COMPLETE as its successor is (R127). -/
theorem mem_eligible {last : Option Nat} {ring : List FieldRecord} {x : FieldRecord} (h : x ∈ eligible last ring) :
    ∃ front y back, ring = front ++ x :: y :: back ∧ x.state = .complete ∧ y.state = .complete := by
  induction ring using eligible.induct (last := last) with
  | case1 => simp [eligible] at h
  | case2 => simp [eligible] at h
  | case3 a b rest hc ih =>
    rw [eligible, if_pos hc] at h
    rcases List.mem_cons.1 h with rfl | h
    · exact ⟨[], b, rest, rfl, hc.1, hc.2.1⟩
    · obtain ⟨front, y, back, e, hx, hy⟩ := ih h
      exact ⟨a :: front, y, back, by rw [e]; rfl, hx, hy⟩
  | case4 a b rest hc ih =>
    rw [eligible, if_neg hc] at h
    obtain ⟨front, y, back, e, hx, hy⟩ := ih h
    exact ⟨a :: front, y, back, by rw [e]; rfl, hx, hy⟩

theorem ringsMove_takeEligible {x : FieldRecord} (h : x ∈ eligible (s.ch c).ctl.lastOutput (s.ch c).ring) :
    RingsMove s (takeCentre c x.num s) := by
  obtain ⟨front, y, back, e, hx, hy⟩ := mem_eligible h
  exact ringsMove_takeCentre c s e hx hy

theorem ringsMove_repeatCentre : RingsMove s (repeatCentre c s).1 := by
  unfold repeatCentre
  split
  · exact .refl s
  · next r _ =>
    refine .trans (ringsMove_modCh ?_) ringsStand_raise.moves
    exact ringMoves_modRecord (num := r.num) rfl (editsInPlace_of_eq fun _ => ⟨rfl, rfl, rfl, rfl, rfl⟩)

theorem ringsMove_schedule : RingsMove s (schedule c s).1 := by
  unfold schedule
  split
  · exact ringsMove_repeatCentre c s
  · next e => exact ringsMove_takeEligible c s (by rw [e]; simp)
  · next e => exact ringsMove_takeEligible c s (by rw [e]; simp)
  · next e =>
    dsimp only
    split
    · next r hr =>
      exact ((ringsMove_takeEligible c s (by rw [e]; exact List.mem_of_getElem? hr)).trans
        (ringsStand_modCh rfl).moves).trans ringsStand_raise.moves
    · exact .refl s

theorem ringsMove_lossActionWork : RingsMove s (lossActionWork c s).1 := by
  unfold lossActionWork
  split
  · exact ringsMove_modCh (advanceUses_ringMoves _ _)
  · exact .refl s
  · exact .refl s

theorem ringsMove_startingWork (x : ChanState) : RingsMove s (startingWork c x s).1 := by
  unfold startingWork
  split
  · exact RingsMove.trans (RingsStand.moves (ringsStand_modCh rfl)) (ringsMove_schedule c _)
  · exact .refl s

/-- HALTING ends (R44, R132): the ring is flushed. -/
theorem ringsMove_completeHalt (tag : Byte) : RingsMove s (completeHalt c tag s) := by
  have hflush := ringsMove_flushRing c (endFrame c s) (g := stopChannel) (b := false) (.inl rfl) fun ch h => by
    obtain ⟨hring, hcount, -, -⟩ := RingView.mk.inj h
    show RingView.mk ch.ring ch.fieldCount _ none = _
    rw [hring, hcount]
    simp [stopChannel, clearCadence, ringView]
  exact ((ringsStand_endFrame c s).moves.trans hflush).trans ringsStand_answer.moves

theorem ringsMove_chooseFrame (n : Nat) : RingsMove s (chooseFrame c n s).1 := by
  unfold chooseFrame
  split
  · exact .refl s
  · exact ringsMove_startingWork c s _
  · exact ringsMove_schedule c s
  · unfold haltingWork
    split
    · exact .refl s
    · split
      · exact ringsMove_completeHalt c s _
      · unfold originWork
        split
        · exact ringsMove_schedule c s
        · exact ringsMove_startingWork c s _
        · exact ringsMove_lossActionWork c s
        · exact .refl s
        · exact .refl s
  · exact ringsMove_lossActionWork c s

/-- Frame values in force leave the ring and the last output field (R138). -/
theorem ringView_frameValuesInForce (n : Nat) (ch : Channel) : ringView (frameValuesInForce n ch) = ringView ch := by
  unfold frameValuesInForce
  split
  · split <;> rfl
  · rfl

theorem ringsMove_controlWork (n : Nat) : RingsMove s (controlWork c n s) := by
  unfold controlWork
  dsimp only
  split
  · exact ((ringsStand_endFrame c s).trans (ringsStand_modCh rfl)).moves.trans (ringsMove_pumpEngine c _)
  · exact ((((ringsStand_endFrame c s).trans (ringsStand_modCh (ringView_frameValuesInForce n _))).moves.trans
      (ringsMove_chooseFrame c _ n)).trans (ringsStand_modCh rfl).moves).trans (ringsMove_pumpEngine c _)

/-! ### Directives -/

/-- A device restart empties every ring (R47, R165). -/
theorem ringsMove_deviceRestart : RingsMove s (deviceRestart s) := fun d => by
  have h : ringView ((deviceRestart s).ch d) = ⟨[], 0, false, none⟩ := by cases d <;> rfl
  rw [h]
  exact .single (.flush (.inr rfl))

theorem ringsStand_abortHalt (r : Option HaltRecord) : RingsStand s (abortHalt c r s) := by
  unfold abortHalt
  split
  · exact ringsStand_answer
  · exact .refl s

theorem ringsStand_abortCommit (l : LoadState) : RingsStand s (abortCommit c l s) := by
  unfold abortCommit
  split
  · split
    · exact ringsStand_answer
    · exact .refl s
  · exact .refl s
  · exact .refl s

theorem ringsMove_doResetChannel (d : Directive) : RingsMove s (doResetChannel c d s) := by
  have hflush := ringsMove_flushRing c (abandonFrame c s) (g := resetChannelPart) (b := false) (.inr rfl) fun ch h => by
    obtain ⟨hring, -, -, -⟩ := RingView.mk.inj h
    show RingView.mk ch.ring 0 false none = _
    rw [hring]
  have hreset := (ringsStand_abandonFrame c s).moves.trans hflush
  unfold doResetChannel
  dsimp only
  have hanswers := fun t => RingsStand.answered (c := c) (tag := d.tag) (kind := d.kind) (code := .done) (r := none) (l := [])
    ((ringsStand_abortHalt c t (s.ch c).ctl.halt).trans (ringsStand_abortCommit c _ s.loader))
  split
  · refine .trans (.trans ?_ (hanswers _).moves) ringsStand_raise.moves
    exact hreset.device rfl
  · refine .trans ?_ (hanswers _).moves
    exact hreset.device rfl

theorem ringsStand_channelDirectives (n : Nat) (d : Directive) :
    RingsStand s (doProbe c d s) ∧ RingsStand s (doSetFormat c n d s) ∧ RingsStand s (doSetParameters c n d s) ∧
    RingsStand s (doStart c d s) ∧ RingsStand s (doHalt c n d s) ∧ RingsStand s (doReadStats c d s) := by
  refine ⟨RingsStand.answered (ringsStand_modCh rfl), ?_, ?_, ?_, ?_, ?_⟩
  · unfold doSetFormat
    split
    · exact RingsStand.answered (ringsStand_modCh rfl)
    · exact ringsStand_answer
    · exact ringsStand_answer
  · unfold doSetParameters
    split
    · exact ringsStand_answer
    · dsimp only
      split
      · exact RingsStand.answered ((ringsStand_modCh rfl).trans ringsStand_deliverHeld)
      · exact RingsStand.answered (ringsStand_modCh rfl)
  · unfold doStart
    split
    · split
      · exact RingsStand.answered (ringsStand_modCh rfl)
      · exact ringsStand_answer
    · exact ringsStand_answer
  · unfold doHalt
    split
    · exact ringsStand_modCh rfl
    · exact ringsStand_modCh rfl
    · exact ringsStand_modCh rfl
    · exact ringsStand_answer
    · exact ringsStand_answer
  · unfold doReadStats
    split
    · exact RingsStand.answered (ringsStand_modCh rfl)
    · exact ringsStand_answer

theorem ringsStand_loadDirectives (n : Nat) (d : Directive) :
    RingsStand s (doLoadBegin c d s) ∧ RingsStand s (doLoadSegment c d s) ∧ RingsStand s (doLoadCommit c n d s) ∧
    RingsStand s (doLoadAbort c d s) ∧ RingsStand s (doReadTable c d s) := by
  refine ⟨?_, ?_, ?_, ?_, ?_⟩
  · unfold doLoadBegin
    split
    · exact ringsStand_answer
    · split
      · exact ringsStand_answer
      · exact RingsStand.answered (ringsStand_of_chans rfl)
    · exact ringsStand_answer
    · exact ringsStand_answer
  · unfold doLoadSegment
    split
    · exact ringsStand_answer
    · exact ringsStand_answer
    · dsimp only
      split
      · exact ringsStand_answer
      · split
        · exact RingsStand.answered (ringsStand_of_chans rfl)
        · exact ringsStand_answer
  · unfold doLoadCommit
    split
    · exact ringsStand_answer
    · exact ringsStand_answer
    · split
      · exact ringsStand_answer
      · split
        · exact ringsStand_answer
        · split
          · exact RingsStand.answered (ringsStand_of_chans rfl)
          · exact ringsStand_of_chans rfl
  · unfold doLoadAbort
    split
    · exact ringsStand_answer
    · exact ringsStand_answer
    · split
      · exact RingsStand.answered (ringsStand_of_chans rfl)
      · exact ringsStand_answer
  · unfold doReadTable
    split
    · exact ringsStand_answer
    · dsimp only
      split
      · exact ringsStand_answer
      · exact ringsStand_answer

theorem ringsStand_deviceDirectives (d : Directive) :
    RingsStand s (doDeviceStatus c d s) ∧ RingsStand s (doClearErrors c d s) ∧
    RingsStand s (doSetDeviceOptions c d s) ∧ RingsStand s (doArmProbe c d s) ∧ RingsStand s (doReadProbe c d s) := by
  refine ⟨ringsStand_answer, RingsStand.answered (ringsStand_of_chans rfl), ?_, ?_, ringsStand_answer⟩
  · unfold doSetDeviceOptions
    split
    · exact RingsStand.answered (ringsStand_of_chans rfl)
    · exact RingsStand.answered (ringsStand_of_chans rfl)
    · exact ringsStand_answer
  · unfold doArmProbe
    split
    · exact ringsStand_answer
    · split
      · exact RingsStand.answered (ringsStand_of_chans rfl)
      · exact ringsStand_answer

/-- Of the directives a channel reset and a device restart alone reach a ring (R46, R47). -/
theorem ringsMove_carryOutKind (k : DirKind) (n : Nat) (d : Directive) : RingsMove s (carryOutKind k c n d s) := by
  obtain ⟨hprobe, hformat, hparams, hstart, hhalt, hstats⟩ := ringsStand_channelDirectives c s n d
  obtain ⟨hbegin, hsegment, hcommit, habort, htable⟩ := ringsStand_loadDirectives c s n d
  obtain ⟨hstatus, hclear, hoptions, harm, hread⟩ := ringsStand_deviceDirectives c s d
  cases k with
  | probe => exact hprobe.moves
  | setFormat => exact hformat.moves
  | setParameters => exact hparams.moves
  | start => exact hstart.moves
  | halt => exact hhalt.moves
  | resetChannel => exact ringsMove_doResetChannel c s d
  | readStats => exact hstats.moves
  | loadBegin => exact hbegin.moves
  | loadSegment => exact hsegment.moves
  | loadCommit => exact hcommit.moves
  | loadAbort => exact habort.moves
  | readTable => exact htable.moves
  | deviceStatus => exact hstatus.moves
  | clearErrors => exact hclear.moves
  | setDeviceOptions => exact hoptions.moves
  | armProbe => exact harm.moves
  | readProbe => exact hread.moves
  | restartDevice => exact ringsMove_deviceRestart s

theorem ringsMove_carryOut (n : Nat) (d : Directive) : RingsMove s (carryOut c n d s) := by
  unfold carryOut
  split
  · exact ringsStand_answer.moves
  · split
    · exact ringsStand_answer.moves
    · exact ringsMove_carryOutKind c s _ n d

theorem ringsMove_takeNext (n : Nat) : RingsMove s (takeNext c n s) := by
  unfold takeNext
  split
  · exact .refl s
  · split
    · exact .refl s
    · split
      · exact RingsMove.trans (RingsStand.moves (ringsStand_modCh rfl)) (ringsMove_carryOut c _ n _)
      · exact (ringsStand_modCh rfl).moves

theorem ringsMove_takeKind (k : Option DirKind) : RingsMove s (takeKind c k s) := by
  unfold takeKind
  split
  · exact .refl s
  · split
    · exact ringsMove_takeNext c s _
    · exact .refl s

/-! ### An output frame start -/

theorem ringsMove_issueStart {news : State → State} (hnews : ∀ s, RingsStand s (news s)) (order : List StartWork) :
    RingsMove s (issueStart news order s) := by
  have hwork : ∀ n s w, RingsMove s (doWork news n s w) := fun n s w => by
    cases w with
    | announce => exact (hnews s).moves
    | loader => exact (ringsStand_loaderWork s n).moves
    | control c => exact ringsMove_controlWork c s n
    | loss c => exact ringsMove_lossWork c s
    | report c => exact (ringsStand_reportWork c s).moves
    | packet c => exact ringsMove_takeNext c s n
  have hclose : ∀ s, RingsStand s (closeStart s) := fun s => by
    have hforget := ringsStand_eachChan (f := fun c t => t.modCh c fun ch =>
      { ch with pku := { ch.pku with taken := 0 }, lossDone := false, haltDone := false })
      (fun _ _ => ringsStand_modCh rfl) s
    exact hforget.device rfl
  exact (RingsMove.trans (t := { s with startNo := s.startNo + 1, startSeen := true }) (ringsStand_of_chans rfl).moves
    (ringsMove_foldl (hwork _) _ _)).trans (hclose _).moves

end

end Sys2Proof.Machine
end

section
/-! SUPPORT. A line start's effect on the rings, and with it what every command does to them. -/

namespace Sys2Proof.Machine

open Sys2Proof

/-! ### One ring changed -/

/-- The ring of channel `c` becomes what `v` says, and the others stand. -/
structure RingBecomes (c : Chan) (s t : State) (v : RingView) : Prop where
  same  : ringView (t.ch c) = v
  other : ∀ d, d ≠ c → ringView (t.ch d) = ringView (s.ch d)

section

variable {c : Chan} {s t u : State} {v w : RingView}

theorem RingBecomes.trans (h : RingBecomes c s t v) (k : RingBecomes c t u w) : RingBecomes c s u w :=
  ⟨k.same, fun d hd => (k.other d hd).trans (h.other d hd)⟩

theorem RingBecomes.step (h : RingBecomes c s t v) (hv : RingStep (ringView (s.ch c)) v) : RingsStep s t := fun d => by
  by_cases hd : d = c
  · subst hd; rw [h.same]; exact hv
  · rw [h.other d hd]; exact .inl .refl

theorem RingBecomes.stand (h : RingBecomes c s t v) (k : RingsStand t u) : RingBecomes c s u v :=
  ⟨(k c).trans h.same, fun d hd => (k d).trans (h.other d hd)⟩

theorem RingsStand.becomes (h : RingsStand s t) : RingBecomes c s t (ringView (s.ch c)) := ⟨h c, fun d _ => h d⟩

theorem ringBecomes_modCh {f : Channel → Channel} (h : ringView (f (s.ch c)) = v) : RingBecomes c s (s.modCh c f) v :=
  ⟨by rw [State.ch_modCh_same, h], fun d hd => by rw [State.ch_modCh_ne _ hd]⟩

theorem ringBecomes_removeFromRing (ring : List FieldRecord) :
    RingBecomes c s (removeFromRing c ring s) { ringView (s.ch c) with ring := ring } :=
  ⟨ringView_removeFromRing c s ring, fun d hd => by rw [removeFromRing_ch_ne c s hd]⟩

end

/-! ### A field start accepted -/

theorem ringsStand_forcedDrop (c : Chan) (n : Nat) (s : State) : RingsStand s (forcedDrop c n s) :=
  .trans (ringsStand_modCh rfl) ringsStand_raise

/-- Reclaim makes room in its own ring (R34, R35). -/
theorem ringBecomes_reclaim (c : Chan) (s : State) :
    RingBecomes c s (reclaim c s) { ringView (s.ch c) with ring := reclaimedRing (s.ch c).ring } := by
  have hstands : RingBecomes c s s (ringView (s.ch c)) := (RingsStand.refl s).becomes
  unfold reclaim reclaimedRing
  split
  · cases oldestUnpinned (s.ch c).ring with
    | none => exact hstands
    | some r =>
      have hremoved := ringBecomes_removeFromRing (c := c) (s := s) ((s.ch c).ring.erase r)
      dsimp only
      split
      · exact hremoved.stand (ringsStand_forcedDrop _ _ _)
      · exact hremoved
  · exact hstands

/-- The ring with the new record at its end (R34 step 2). -/
theorem ringView_appendRecord (num offset : Nat) (flywheel : Option Parity) (ch : Channel) :
    ringView (openImage num (appendRecord num offset flywheel ch)) = { ringView ch with
      ring := (ringView ch).ring ++ [newRecord num (lowestFreeSlot (ringView ch).ring) offset flywheel] } := rfl

/-- Reclaim and append (R34): the record numbered `num` ends the ring. -/
theorem ringBecomes_append (c : Chan) (num offset : Nat) (flywheel : Option Parity) (s : State) :
    RingBecomes c s ((reclaim c s).modCh c fun ch => openImage num (appendRecord num offset flywheel ch))
      { ringView (s.ch c) with
        ring := reclaimedRing (s.ch c).ring ++
          [newRecord num (lowestFreeSlot (reclaimedRing (s.ch c).ring)) offset flywheel] } := by
  have h := ringBecomes_reclaim c s
  refine h.trans (ringBecomes_modCh ?_)
  rw [ringView_appendRecord, h.same]

/-- A LOST channel's ring at the field start that ends its loss (R45). -/
theorem ringBecomes_lostToStarting (c : Chan) (s : State) :
    RingBecomes c s (lostToStarting c s) { ringView (s.ch c) with ring := [], last := none } := by
  have habandon : RingBecomes c s (abandonFrame c s) (ringView (s.ch c)) := (ringsStand_abandonFrame c s).becomes
  have hflush : RingBecomes c s (flushRing c (abandonFrame c s)) { ringView (s.ch c) with ring := [] } := by
    have h := habandon.trans (ringBecomes_removeFromRing [])
    rw [habandon.same] at h
    exact h
  have hlast : ∀ ch : Channel, ringView { ch with ctl := { ch.ctl with state := .starting, lastOutput := none } } =
      { ringView ch with last := none } := fun _ => rfl
  refine hflush.trans (ringBecomes_modCh ?_)
  rw [hlast, hflush.same]

/-- The field start's counts (R4, R15): the field is accepted, and the field count advances. -/
theorem ringView_countAccepted (b : Bool) {ch : Channel} (h : ch.recv.state = .inField) :
    ringView (fieldValuesInForce (countAccepted b ch)) =
      { ringView ch with fieldCount := nextField ch.fieldCount, accepting := true } := by
  unfold ringView fieldValuesInForce countAccepted
  simp [h]

/-- A field start offered for acceptance, with no accepted field in progress (R15, R34, R45). -/
theorem ringsStep_acceptField {c : Chan} (flywheel : Option Parity) {s : State} (hin : (s.ch c).recv.state = .inField)
    (hnew : (s.ch c).recv.accepted = false) : RingsStep s (acceptField c flywheel s) := by
  have hidle : (ringView (s.ch c)).accepting = false := by simp [ringView, hnew]
  unfold acceptField
  split
  · have hcount : RingBecomes c s (s.modCh c fun ch => fieldValuesInForce (countAccepted flywheel.isSome ch)) _ :=
      ringBecomes_modCh (ringView_countAccepted flywheel.isSome hin)
    dsimp only
    split
    · have hlost := hcount.trans (ringBecomes_lostToStarting c _)
      have happend := hlost.trans (ringBecomes_append c (s.ch c).fieldCount ((s.ch c).recv.latestOffset.getD 0) flywheel _)
      refine happend.step (.inr ⟨⟨[], (s.ch c).fieldCount, false, none⟩, .single (.flush (.inl rfl)), rfl,
        (s.ch c).recv.latestOffset.getD 0, flywheel, ?_⟩)
      have hring : ((lostToStarting c (s.modCh c fun ch =>
        fieldValuesInForce (countAccepted flywheel.isSome ch))).ch c).ring = [] := congrArg RingView.ring hlost.same
      rw [hlost.same, hring, hcount.same]
    · have happend := hcount.trans (ringBecomes_append c (s.ch c).fieldCount ((s.ch c).recv.latestOffset.getD 0) flywheel _)
      refine happend.step (.inr ⟨ringView (s.ch c), .refl, hidle, (s.ch c).recv.latestOffset.getD 0, flywheel, ?_⟩)
      have hring : ((s.modCh c fun ch => fieldValuesInForce (countAccepted flywheel.isSome ch)).ch c).ring =
        (s.ch c).ring := congrArg RingView.ring hcount.same
      rw [hcount.same, hring]
      rfl
  · exact (RingsMove.refl s).step

/-! ### A field begun, a field closed -/

/-- The receiver begins a field that is not accepted yet (R12, R13). -/
theorem ringsMove_beginField {c : Chan} (w : TimingWord) (b : Bool) (n : Nat) {s : State}
    (h : (ringView (s.ch c)).accepting = false ∨ ∀ r ∈ (s.ch c).ring, r.state = .complete) :
    RingsMove s (s.modCh c (beginField w b n)) := by
  have hbegin : ringView (beginField w b n (s.ch c)) = { ringView (s.ch c) with accepting := false } := by
    simp [ringView, beginField]
  refine ringsMove_modCh ?_
  rw [hbegin]
  exact .single (.close h)

/-- A field begun with no accepted field behind it, and offered for acceptance (R12, R13, R15). -/
theorem ringsStep_begun {c : Chan} (w : TimingWord) (b : Bool) (n : Nat) (flywheel : Option Parity) {s t : State}
    (h : (ringView (s.ch c)).accepting = false ∨ ∀ r ∈ (s.ch c).ring, r.state = .complete)
    (ht : RingsStand (s.modCh c (beginField w b n)) t)
    (hrecv : (t.ch c).recv = ((s.modCh c (beginField w b n)).ch c).recv) : RingsStep s (acceptField c flywheel t) := by
  rw [State.ch_modCh_same] at hrecv
  exact ((ringsMove_beginField w b n h).trans ht.moves).andThen
    (ringsStep_acceptField flywheel (by rw [hrecv]; rfl) (by rw [hrecv]; rfl))

theorem ringsMove_closeField (c : Chan) (line : LineIn) (s : State) : RingsMove s (closeField c line s) := by
  have hline : RingsMove s (arbitrate (s.modCh c (endLine line))) :=
    (ringsMove_modCh (endLine_ringMoves line _)).trans (ringsMove_arbitrate _)
  unfold closeField
  dsimp only
  split
  · refine (hline.trans (.trans ?_ (ringsMove_modCh (completeRecord_ringMoves _)))).trans (ringsMove_cadenceFieldEnd c _)
    exact ringsMove_modCh ((discardBuffer_ringMoves _).trans (shortLines_ringMoves _ _))
  · exact hline

/-- Moves make no COMPLETE record FILLING. -/
theorem RingMove.keeps_complete (v w : RingView) (hv : ∀ r ∈ v.ring, r.state = .complete) (h : RingMove v w) :
    ∀ r ∈ w.ring, r.state = .complete := by
  intro r hr
  cases h with
  | edit hf =>
    obtain ⟨x, hx, rfl⟩ := List.mem_map.1 hr
    exact hf.complete (hv x hx)
  | leave hl => exact hv r (hl.1.subset hr)
  | close _ => exact hv r hr
  | flush _ => simp at hr
  | take _ _ _ =>
    obtain ⟨x, hx, b, rfl⟩ := mem_releasedRing hr
    exact hv x hx

/-- The record in progress is COMPLETE once it has been completed (R36). -/
theorem completeRecord_complete (ch : Channel) : ∀ r ∈ (completeRecord ch).ring, r.state = .complete := by
  intro r hr
  obtain ⟨x, -, rfl⟩ := List.mem_map.1 hr
  split
  · rfl
  · next h => cases hx : x.state with
    | filling => exact absurd hx h
    | complete => rfl

/-- After a field in progress is closed, no accepted field is in progress or every record is COMPLETE (R14, R36). -/
theorem closeField_closes (c : Chan) (line : LineIn) (s : State) :
    (ringView ((closeField c line s).ch c)).accepting = false ∨
      ∀ r ∈ ((closeField c line s).ch c).ring, r.state = .complete := by
  unfold closeField
  dsimp only
  split
  · refine .inr ((ringsMove_cadenceFieldEnd c _ c).keeps RingMove.keeps_complete ?_)
    rw [State.ch_modCh_same]
    exact completeRecord_complete _
  · next h => exact .inl (by simpa [ringView] using fun _ => h)

/-! ### A line start -/

/-- With no field in progress no accepted field is. -/
theorem accepting_of_state {ch : Channel} (h : ch.recv.state ≠ .inField) : (ringView ch).accepting = false := by
  simp [ringView, h]

/-- The receiver's items stand when an event is raised. -/
theorem raise_recv (c : Chan) (k : EventKind) (n : Nat) (s : State) : ((raise c k n s).ch c).recv = (s.ch c).recv := by
  rw [raise_ch_same]

theorem ringsStep_lineStart (c : Chan) (w : TimingWord) (line : LineIn) (s : State) :
    RingsStep s (lineStart c w line s) := by
  unfold lineStart
  split
  · next h =>
    have hidle := accepting_of_state (ch := s.ch c) (by simp [h])
    split
    · exact ringsStep_begun w false _ none (.inl hidle) (.refl _) rfl
    · exact (RingsMove.refl s).step
  · next h =>
    have hidle := accepting_of_state (ch := s.ch c) (by simp [h])
    split
    · exact ringsStep_begun w false _ none (.inl hidle) ringsStand_raise (raise_recv ..)
    · exact (RingsMove.refl s).step
  · split
    · exact (ringsMove_closeField c line s).andThen
        (ringsStep_begun w false _ none (closeField_closes c line s) (.refl _) rfl)
    · split
      · exact (ringsMove_closeField c line s).andThen
          (ringsStep_begun w true _ _ (closeField_closes c line s) (.refl _) rfl)
      · exact RingsMove.step (((ringsMove_modCh (endLine_ringMoves line _)).trans (ringsMove_arbitrate _)).trans
          (ringsMove_modCh (nextLine_ringMoves w _)))

/-! ### Commands -/

theorem ringsMove_execPinReset (straps : BitVec 4) {s t : State} (h : execPinReset straps s = .next t) :
    RingsMove s t := by
  cases h
  intro d
  refine Relation.ReflTransGen.single ?_
  cases d <;> exact .flush (.inr rfl)

theorem ringsMove_execPowerOnReset (straps : BitVec 4) (found : List Host.Cell) (errs : List (Nat × WordError))
    {s t : State} (h : execPowerOnReset straps found errs s = .next t) : RingsMove s t := by
  cases h
  intro d
  refine Relation.ReflTransGen.single ?_
  cases d <;> exact .flush (.inr rfl)

theorem ringsMove_execWriteBurstComplete {s t : State} (h : execWriteBurstComplete s = .next t) : RingsMove s t := by
  unfold execWriteBurstComplete at h
  split at h <;> cases h
  · next c slot k words _ =>
    exact RingsMove.trans (t := writeLine c slot k words s) (ringsStand_of_chans rfl).moves (ringsMove_burstEnded _)
  · exact .refl s

theorem ringsMove_execReadBurstComplete {line : LineRead} {s t : State} (h : execReadBurstComplete line s = .next t) :
    RingsMove s t := by
  unfold execReadBurstComplete at h
  split at h <;> cases h
  · exact .trans (ringsMove_readDelivered _ _ _ _ _ _ _ _ _) (ringsMove_pumpEngine _ _)
  · exact .refl s

theorem ringView_sendReport (device : BitVec 4) (ch : Channel) : ringView (sendReport device ch) = ringView ch := by
  unfold sendReport
  split <;> rfl

theorem ringView_activePeriod (sc : ScalerFrame) (y : Nat) (ch : Channel) :
    ringView (activePeriod sc y ch) = ringView ch := by
  unfold activePeriod
  split
  · rfl
  · split <;> rfl

theorem ringView_linePeriod (device : BitVec 4) (sc : ScalerFrame) (ch : Channel) :
    ringView (linePeriod device sc ch) = ringView ch := by
  unfold linePeriod
  split
  · exact ringView_sendReport device ch
  · split
    · exact ringView_activePeriod sc _ ch
    · rfl

theorem ringView_endedPeriod (device : BitVec 4) (x : EndedFrame) (ch : Channel) :
    ringView (endedPeriod device x ch) = ringView ch := by
  unfold endedPeriod
  dsimp only
  split
  · exact ringView_sendReport device ch
  · split <;> rfl

theorem ringsMove_execOutputLinePeriod {c : Chan} {s t : State} (h : execOutputLinePeriod c s = .next t) :
    RingsMove s t := by
  unfold execOutputLinePeriod at h
  split at h <;> cases h
  · exact RingsMove.trans (ringsStand_modCh (ringView_linePeriod _ _ _)).moves (ringsMove_pumpEngine c _)
  · exact (ringsStand_modCh (ringView_endedPeriod _ _ _)).moves
  · exact .refl s

theorem ringsMove_execHaltComplete {c : Chan} {s t : State} (h : execHaltComplete c s = .next t) : RingsMove s t := by
  unfold execHaltComplete at h
  split at h
  · split at h <;> cases h
    · exact ((ringsStand_modCh (ringView_frameValuesInForce _ _)).moves.trans (ringsMove_completeHalt c _ _)).trans
        (ringsStand_modCh rfl).moves
    · exact .refl s
  · cases h; exact .refl s

theorem ringsMove_execInputLoss {c : Chan} {s t : State} (h : execInputLoss c s = .next t) : RingsMove s t := by
  unfold execInputLoss at h
  split at h <;> cases h
  · exact ringsMove_lossWork c s
  · exact .refl s

theorem ringsStand_execLoadAbandoned {s t : State} (h : execLoadAbandoned s = .next t) : RingsStand s t := by
  unfold execLoadAbandoned at h
  split at h
  · split at h <;> cases h
    · exact ringsStand_loaderWork s _
    · exact .refl s
  · cases h; exact .refl s

theorem ringsStand_execTableSwap {s t : State} (h : execTableSwap s = .next t) : RingsStand s t := by
  unfold execTableSwap at h
  split at h
  · split at h <;> cases h
    · exact ringsStand_loaderWork s _
    · exact .refl s
  · cases h; exact .refl s

theorem ringsStand_execControlPacket {c : Chan} {s t : State} (h : execControlPacket c s = .next t) : RingsStand s t := by
  unfold execControlPacket at h
  split at h <;> cases h
  · exact .refl s
  · exact .trans (ringsStand_modCh rfl) (ringsStand_checkLineOf c _ _)

theorem ringsStep_execTimingWord {c : Chan} {dt : Nat} {w : TimingWord} {line : LineIn} {s t : State}
    (h : execTimingWord c dt w line s = .next t) : RingsStep s t := by
  cases h
  have hclear : ringView (clearLossCount w (s.ch c)) = ringView (s.ch c) := by
    unfold clearLossCount
    split <;> rfl
  have hnow : RingsStand s { s with now := s.now + dt } := ringsStand_of_chans rfl
  exact (hnow.trans (ringsStand_modCh hclear)).moves.andThen (ringsStep_lineStart c w line _)

/-- An output frame start, behind a change of the RTU and the time. -/
theorem ringsMove_startIssued {news : State → State} (hnews : ∀ s, RingsStand s (news s)) (order : List StartWork)
    {s t : State} (ht : t.chans = s.chans) : RingsMove s (issueStart news order t) :=
  (ringsStand_of_chans ht).moves.trans (ringsMove_issueStart t hnews order)

theorem ringsMove_execReferencePulse {dt : Nat} {f : Family} {order : List StartWork} {s t : State}
    (h : execReferencePulse dt f order s = .next t) : RingsMove s t := by
  unfold execReferencePulse at h
  cases h
  refine ringsMove_startIssued (fun u => ringsStand_pulseNews u s.rtu f) order ?_
  rfl

theorem ringsMove_execRefLossTimeout {order : List StartWork} {s t : State}
    (h : execRefLossTimeout order s = .next t) : RingsMove s t := by
  unfold execRefLossTimeout at h
  split at h <;> cases h
  · exact .refl s
  · refine ringsMove_startIssued (fun _ => ringsStand_raiseAll) order ?_
    rfl

theorem ringsMove_execFreeRunExpiry {order : List StartWork} {s t : State}
    (h : execFreeRunExpiry order s = .next t) : RingsMove s t := by
  unfold execFreeRunExpiry at h
  split at h <;> cases h
  · refine ringsMove_startIssued RingsStand.refl order ?_
    rfl
  · exact .refl s

/-- What each command does to the rings: the taking of a directive, a device reset, an input, a completed burst, an
output frame start or a piece of one, or a line period; TIMING_WORD alone accepts a field. -/
theorem exec_ringsStep {i : Instr} {s t : State} (h : exec i s = .next t) : RingsStep s t := by
  have htaken : ∀ {c : Chan} {k : Option DirKind},
      (.next (takeKind c k s) : Host.Outcome State Fault Refusal) = .next t → RingsStep s t := fun h => by
    cases h; exact (ringsMove_takeKind _ s _).step
  cases i with
  | powerOnReset straps found errs => exact (ringsMove_execPowerOnReset straps found errs h).step
  | pinReset straps => exact (ringsMove_execPinReset straps h).step
  | timingWord c dt w line => exact ringsStep_execTimingWord h
  | controlPacket c => exact (ringsStand_execControlPacket h).moves.step
  | writeBurstComplete => exact (ringsMove_execWriteBurstComplete h).step
  | readBurstComplete line => exact (ringsMove_execReadBurstComplete h).step
  | referencePulse dt f order => exact (ringsMove_execReferencePulse h).step
  | refLossTimeout order => exact (ringsMove_execRefLossTimeout h).step
  | freeRunExpiry order => exact (ringsMove_execFreeRunExpiry h).step
  | inputLoss c => exact (ringsMove_execInputLoss h).step
  | loadAbandoned => exact (ringsStand_execLoadAbandoned h).moves.step
  | tableSwap => exact (ringsStand_execTableSwap h).moves.step
  | haltComplete c => exact (ringsMove_execHaltComplete h).step
  | outputLinePeriod c => exact (ringsMove_execOutputLinePeriod h).step
  | restartDevice c | probe c | setFormat c | setParameters c | start c | halt c | resetChannel c | readStats c
  | loadBegin c | loadSegment c | loadCommit c | loadAbort c | readTable c | deviceStatus c | clearErrors c
  | setDeviceOptions c | armProbe c | readProbe c | unknownKind c => exact htaken h

/-- What a step does to the rings. -/
theorem step_ringsStep {s t : State} (h : step s = .next t) : RingsStep s t := by
  unfold step at h
  split at h
  · cases h; exact (RingsMove.refl s).step
  · next i rest _ =>
    have hqueue : RingsStand s { s with pending := rest } := ringsStand_of_chans rfl
    exact hqueue.moves.andThen (exec_ringsStep h)

/-- Settles O58: what a step does to a ring are moves, behind which one field start may be accepted, and each of them
keeps the ring's shape, its dropout lists, its numbers and its pins. -/
theorem ringsKeepTheirShape : Obligations.RingsKeepTheirShape := by
  refine ⟨fun s t hrings hlists h => ⟨fun c => ?_, fun c => ?_⟩, fun s t hrings horder hyoung h c => ?_⟩
  · exact (ringShape_iff _).2 ((step_ringsStep h c).keeps_shaped ((ringShape_iff _).1 (hrings c)))
  · exact (step_ringsStep h c).keeps_listsInOrder (hlists c)
  · obtain ⟨hnumbers, hpins⟩ := (step_ringsStep h c).keeps_ordered ⟨(ringShape_iff _).1 (hrings c),
      (numbersInOrder_iff _).1 (horder c).1, (pinsStandTogether_iff _).1 (horder c).2, hyoung c⟩
    exact ⟨(numbersInOrder_iff _).2 hnumbers, (pinsStandTogether_iff _).2 hpins⟩

end Sys2Proof.Machine
end

section
/-! SUPPORT. SET FORMAT and the payloads of SET FORMAT and SET PARAMETERS (R10, R137, R162). -/

namespace Sys2Proof.Machine

open Sys2Proof

/-! ### Codes and clamps -/

/-- A clamp is the nearer end for a number outside the range (00_scope 4.2). -/
theorem clampNat_eq {lo hi : Nat} (h : lo ≤ hi) (x : Nat) : clampNat lo hi x = max lo (min hi x) := by
  unfold clampNat
  split
  · omega
  · split <;> omega

/-- The codes of a standard, and the numbers that are none (R162). -/
theorem standardOf?_codes (n : Nat) : (standardOf? n = none ↔ 2 < n) ∧ ∀ x, standardOf? n = some x →
    (n = 0 ↔ x = .s625) ∧ (n = 1 ↔ x = .s525) ∧ (n = 2 ↔ x = .s405) := by
  match n with
  | 0 | 1 | 2 => simp [standardOf?]
  | n + 3 => simp [standardOf?]

/-- The codes of a raster (R162). -/
theorem rasterOf?_codes (n : Nat) : (rasterOf? n = none ↔ 1 < n) ∧ ∀ x, rasterOf? n = some x →
    (n = 0 ↔ x = .r1080) ∧ (n = 1 ↔ x = .r720) := by
  match n with
  | 0 | 1 => simp [rasterOf?]
  | n + 2 => simp [rasterOf?]

/-- The codes of an aspect mode (R162). -/
theorem aspectOf?_codes (n : Nat) : (aspectOf? n = none ↔ 2 < n) ∧ ∀ x, aspectOf? n = some x →
    (n = 0 ↔ x = .pillar) ∧ (n = 1 ↔ x = .crop149) ∧ (n = 2 ↔ x = .stretch) := by
  match n with
  | 0 | 1 | 2 => simp [aspectOf?]
  | n + 3 => simp [aspectOf?]

/-- The codes of a cadence policy (R162). -/
theorem policyOf?_codes (n : Nat) : (policyOf? n = none ↔ 1 < n) ∧ ∀ x, policyOf? n = some x →
    (n = 0 ↔ x = .filmAllowed) ∧ (n = 1 ↔ x = .videoOnly) := by
  match n with
  | 0 | 1 => simp [policyOf?]
  | n + 2 => simp [policyOf?]

/-- The codes of a loss action (R162). -/
theorem lossActionOf?_codes (n : Nat) : (lossActionOf? n = none ↔ 1 < n) ∧ ∀ x, lossActionOf? n = some x →
    (n = 0 ↔ x = .hold) ∧ (n = 1 ↔ x = .black) := by
  match n with
  | 0 | 1 => simp [lossActionOf?]
  | n + 2 => simp [lossActionOf?]

/-! ### The payloads -/

/-- The format of a payload whose three codes stand for these (R10). -/
def payloadFormat (p : List Byte) (std : Standard) (raster : Raster) (aspect : Aspect) : Format :=
  { standard := std, raster := raster, aspect := aspect, vset := clampSet (arg1 p 3), hset := clampSet (arg1 p 4)
    fill := ⟨legalLuma (arg2 p 5), legalChroma (arg2 p 7), legalChroma (arg2 p 9)⟩ }

/-- A payload gives a format exactly when its three codes give their items. -/
theorem formatOf?_eq_some {p : List Byte} {f : Format} : formatOf? p = some f ↔ ∃ std raster aspect,
    standardOf? (arg1 p 0) = some std ∧ rasterOf? (arg1 p 1) = some raster ∧ aspectOf? (arg1 p 2) = some aspect ∧
    f = payloadFormat p std raster aspect := by
  unfold formatOf? payloadFormat
  simp only [Option.bind_eq_bind, Option.bind_eq_some_iff, Option.pure_def, Option.some.injEq]
  constructor
  · rintro ⟨std, hs, raster, hr, aspect, ha, rfl⟩; exact ⟨std, raster, aspect, hs, hr, ha, rfl⟩
  · rintro ⟨std, raster, aspect, hs, hr, ha, rfl⟩; exact ⟨std, hs, raster, hr, aspect, ha, rfl⟩

/-- A payload gives no format exactly when one of its codes gives none. -/
theorem formatOf?_eq_none {p : List Byte} : formatOf? p = none ↔
    standardOf? (arg1 p 0) = none ∨ rasterOf? (arg1 p 1) = none ∨ aspectOf? (arg1 p 2) = none := by
  unfold formatOf?
  cases standardOf? (arg1 p 0) with
  | none => simp
  | some std =>
    cases rasterOf? (arg1 p 1) with
    | none => simp
    | some raster => cases aspectOf? (arg1 p 2) <;> simp

/-- The parameters of a payload whose two codes stand for these (R137). -/
def payloadParameters (p : List Byte) (policy : Policy) (action : LossAction) : FieldParams × FrameParams × BitVec 16 :=
  ({ noise := arg1 p 0, comb := arg1 p 1, repeatLimit := arg2 p 2, pairLimit := arg2 p 4
     confirm := clampNat 1 15 (arg1 p 6), hold := clampNat 0 15 (arg1 p 7), policy := policy },
   { curve := clampSet (arg1 p 9), fallbackLimit := arg2 p 10, lossAction := action },
   BitVec.ofNat 16 (arg2 p 13))

/-- A payload gives parameters exactly when its two codes give their items. -/
theorem parametersOf?_eq_some {p : List Byte} {x : FieldParams × FrameParams × BitVec 16} :
    parametersOf? p = some x ↔ ∃ policy action, policyOf? (arg1 p 8) = some policy ∧
      lossActionOf? (arg1 p 12) = some action ∧ x = payloadParameters p policy action := by
  unfold parametersOf? payloadParameters
  simp only [Option.bind_eq_bind, Option.bind_eq_some_iff, Option.pure_def, Option.some.injEq]
  constructor
  · rintro ⟨policy, hp, action, ha, rfl⟩; exact ⟨policy, action, hp, ha, rfl⟩
  · rintro ⟨policy, action, hp, ha, rfl⟩; exact ⟨policy, hp, action, ha, rfl⟩

/-- A payload gives no parameters exactly when one of its codes gives none. -/
theorem parametersOf?_eq_none {p : List Byte} : parametersOf? p = none ↔
    policyOf? (arg1 p 8) = none ∨ lossActionOf? (arg1 p 12) = none := by
  unfold parametersOf?
  cases policyOf? (arg1 p 8) with
  | none => simp
  | some policy => cases lossActionOf? (arg1 p 12) <;> simp

/-- A byte of a payload is below 256. -/
theorem arg1_lt (p : List Byte) (i : Nat) : arg1 p i < 256 := BitVec.isLt _

/-- Settles O10: a payload is refused through the lists of its codes, and else gives its numbers, clamped. -/
theorem payloadsAreClamped : Obligations.PayloadsAreClamped := by
  intro p b hb
  have harg : ∀ i, arg1 p i = b i := fun i => by rw [hb]; rfl
  have harg2 : ∀ i, arg2 p i = b i + 256 * b (i + 1) := fun i => by rw [hb]; rfl
  have hset : ∀ i, (clampSet (arg1 p i)).val = min 3 (b i) := fun i => by
    rw [harg]; exact Nat.min_comm _ _
  have hluma : ∀ i, legalLuma (arg2 p i) = max 64 (min 940 (b i + 256 * b (i + 1))) := fun i => by
    rw [harg2]; exact clampNat_eq (by decide) _
  have hchroma : ∀ i, legalChroma (arg2 p i) = max 64 (min 960 (b i + 256 * b (i + 1))) := fun i => by
    rw [harg2]; exact clampNat_eq (by decide) _
  refine ⟨?_, fun f hf => ?_, ?_, fun f fr mask hf => ?_⟩
  · rw [formatOf?_eq_none, (standardOf?_codes _).1, (rasterOf?_codes _).1, (aspectOf?_codes _).1, harg, harg, harg]
  · obtain ⟨std, raster, aspect, hs, hr, ha, rfl⟩ := formatOf?_eq_some.1 hf
    rw [harg] at hs hr ha
    obtain ⟨hs0, hs1, hs2⟩ := (standardOf?_codes _).2 std hs
    obtain ⟨hr0, hr1⟩ := (rasterOf?_codes _).2 raster hr
    obtain ⟨ha0, ha1, ha2⟩ := (aspectOf?_codes _).2 aspect ha
    exact ⟨hs0, hs1, hs2, hr0, hr1, ha0, ha1, ha2, hset 3, hset 4, hluma 5, hchroma 7, hchroma 9⟩
  · rw [parametersOf?_eq_none, (policyOf?_codes _).1, (lossActionOf?_codes _).1, harg, harg]
  · obtain ⟨policy, action, hp, ha, he⟩ := parametersOf?_eq_some.1 hf
    obtain ⟨rfl, rfl, rfl⟩ : f = _ ∧ fr = _ ∧ mask = _ := by simpa [payloadParameters] using he
    rw [harg] at hp ha
    obtain ⟨hp0, hp1⟩ := (policyOf?_codes _).2 policy hp
    obtain ⟨ha0, ha1⟩ := (lossActionOf?_codes _).2 action ha
    have hconfirm : clampNat 1 15 (arg1 p 6) = max 1 (min 15 (b 6)) := by rw [harg]; exact clampNat_eq (by decide) _
    have hhold : clampNat 0 15 (arg1 p 7) = min 15 (b 7) := by rw [harg, clampNat_eq (by decide)]; exact Nat.zero_max _
    have hmask : (BitVec.ofNat 16 (arg2 p 13)).toNat = b 13 + 256 * b 14 := by
      have h13 := arg1_lt p 13
      have h14 := arg1_lt p 14
      rw [harg] at h13 h14
      rw [BitVec.toNat_ofNat, show arg2 p 13 = b 13 + 256 * b 14 from harg2 13]
      exact Nat.mod_eq_of_lt (by omega)
    exact ⟨harg 0, harg 1, harg2 2, harg2 4, hconfirm, hhold, hp0, hp1, hset 9, harg2 10, ha0, ha1, hmask⟩

/-! ### SET FORMAT -/

/-- The format read at each output frame start, once a format has been stored ahead of start `n` (R10). -/
theorem formatAt_stored (n : Nat) (x : Control) (f : Format) (m : Nat) :
    formatAt m { x with format := f, priorFormat := keepPrior n x } = if m = n then formatAt n x else f := by
  have hprior : keepPrior n x = some (formatAt n x, n) := by
    unfold keepPrior formatAt
    cases x.priorFormat with
    | none => rfl
    | some q =>
      by_cases h : q.2 = n
      · simp [h]
      · simp [h]
  rw [hprior, formatAt]
  simp only [eq_comm]

/-- The taking of SET FORMAT by its row (R10, R159). -/
theorem exec_setFormat {c : Chan} {s : State} {d : Directive} {rest : List Directive} (h : Takeable c 2 11 d rest s) :
    exec (.setFormat c) s = .next (doSetFormat c (s.startNo + 1) d (s.modCh c (leaveQueue rest))) := by
  have hkind : dirKind? d.kind = some .setFormat := by
    obtain ⟨-, hk, -⟩ := h
    unfold dirKind?
    rw [hk]
    rfl
  have hargs : argBytes .setFormat ≤ d.payload.length := by
    obtain ⟨-, -, hn, -⟩ := h
    exact hn
  exact congrArg Host.Outcome.next (takeKind_known h hkind hargs)

/-- Settles O8: SET FORMAT by the channel's state and by what its payload gives. -/
theorem setFormatResult : Obligations.SetFormatResult := by
  intro c s d rest htake
  have hctl : ((s.modCh c (leaveQueue rest)).ch c).ctl = (s.ch c).ctl := by rw [State.ch_modCh_same]; rfl
  rw [exec_setFormat htake]
  unfold doSetFormat
  rw [hctl]
  refine ⟨fun hstate => ?_, fun hstate hformat => ?_, fun f hstate hformat => ?_⟩
  · cases hs : (s.ch c).ctl.state with
    | stopped => exact absurd hs hstate
    | starting | running | halting | lost => exact congrArg Host.Outcome.next (answer_leaveQueue ..)
  · rw [hstate, hformat]
    exact congrArg Host.Outcome.next (answer_leaveQueue ..)
  · rw [hstate, hformat]
    refine ⟨keepPrior (s.startNo + 1) (s.ch c).ctl, formatAt_stored _ _ f, ?_⟩
    simp [answerDone, answer, State.modCh_eq, leaveQueue, withTaken, withReport, pushReport]

end Sys2Proof.Machine
end

section
/-! SUPPORT. A line at its end, at an ordinary line start: judging and buffering, dropouts, window lines, the parity vote
(R11, R16 to R23, R37), and the grant behind it (R51). -/

namespace Sys2Proof.Machine

open Sys2Proof

/-! ### Dropouts of the field in progress (R19, R20, R37) -/

/-- A dropout does not depend on the receiver's context, and leaves it. -/
theorem receiverDropout_withRecv (k : Nat) (cause : Cause) (ch : Channel) (x : Receiver) :
    receiverDropout k cause { ch with recv := x } = { receiverDropout k cause ch with recv := x } := by
  unfold receiverDropout offerToRing
  dsimp only
  cases fillingRecord ch.ring with
  | none => rfl
  | some r =>
    dsimp only
    cases findRecord ch.ring r.num with
    | none => rfl
    | some q => rfl

@[simp] theorem receiverDropout_recv (k : Nat) (cause : Cause) (ch : Channel) :
    (receiverDropout k cause ch).recv = ch.recv := by
  have h := congrArg Channel.recv (receiverDropout_withRecv k cause ch ch.recv)
  exact h

/-- An offer sets the damaged flag newly when it finds no place in an undamaged record (R20, R37). -/
theorem offerToRecord_snd (k : Nat) (cause : Cause) (r : FieldRecord) : (offerToRecord k cause r).2 = true ↔
    r.damaged = false ∧ (∀ d ∈ r.dropouts, d.line ≠ k) ∧ 16 ≤ r.dropouts.length := by
  unfold offerToRecord offerDropout
  by_cases hlisted : ∃ d ∈ r.dropouts, d.line = k
  · have hany : r.dropouts.any (fun d => d.line == k) = true := by simpa using hlisted
    rw [if_pos hany]
    obtain ⟨d, hd, hk⟩ := hlisted
    simp only [Bool.false_eq_true, false_iff]
    exact fun ⟨_, hne, _⟩ => hne d hd hk
  · have hany : ¬ r.dropouts.any (fun d => d.line == k) = true := by simpa using hlisted
    have hne : ∀ d ∈ r.dropouts, d.line ≠ k := by simpa using hlisted
    rw [if_neg hany]
    by_cases hroom : r.dropouts.length < 16
    · rw [if_pos hroom]
      simp only [Bool.false_eq_true, false_iff]
      exact fun ⟨_, _, h⟩ => by omega
    · rw [if_neg hroom]
      simp only [Bool.not_eq_true']
      exact ⟨fun h => ⟨h, hne, by omega⟩, fun h => h.1⟩

/-- A record offered a dropout (R37): a line listed keeps its place, LOST taking the place of TIMING; another is placed in
ascending order, or sets the damaged flag when 16 are listed. -/
theorem offerToRecord_fst (k : Nat) (cause : Cause) (r : FieldRecord) : (offerToRecord k cause r).1 =
    if (∃ d ∈ r.dropouts, d.line = k) then
      { r with dropouts := r.dropouts.map (fun d =>
          if d.line = k ∧ d.cause = .timing ∧ cause = .lost then ⟨k, .lost⟩ else d) }
    else if r.dropouts.length < 16 then
      { r with dropouts := r.dropouts.takeWhile (fun d => decide (d.line < k)) ++
          ⟨k, cause⟩ :: r.dropouts.dropWhile (fun d => decide (d.line < k)) }
    else { r with damaged := true } := by
  have hcause : ∀ d : Dropout, recause d k cause =
      if d.line = k ∧ d.cause = .timing ∧ cause = .lost then ⟨k, .lost⟩ else d := fun d => by
    unfold recause
    split
    · next h => rw [h.1]
    · rfl
  unfold offerToRecord offerDropout
  by_cases hlisted : ∃ d ∈ r.dropouts, d.line = k
  · have hany : r.dropouts.any (fun d => d.line == k) = true := by simpa using hlisted
    simp only [if_pos hany, if_pos hlisted, hcause]
  · have hany : ¬ r.dropouts.any (fun d => d.line == k) = true := by simpa using hlisted
    simp only [if_neg hany, if_neg hlisted, placeDropout_eq]
    split
    · next h =>
      split at h
      · next hroom => cases h; rw [if_pos hroom]
      · cases h
    · next h =>
      split at h
      · cases h
      · next hroom => rw [if_neg hroom]

/-- A dropout of the field in progress, offered to its record (R19, R20, R38). -/
theorem receiverDropout_filling {ch : Channel} {r : FieldRecord} (k : Nat) (cause : Cause)
    (hf : fillingRecord ch.ring = some r) (hr : findRecord ch.ring r.num = some r) :
    receiverDropout k cause ch = { ch with
      ring := ch.ring.map (fun x => if x.num = r.num then (offerToRecord k cause x).1 else x)
      stats := if r.damaged = false ∧ (∀ d ∈ r.dropouts, d.line ≠ k) ∧ 16 ≤ r.dropouts.length then
        { ch.stats with damagedFields := min 65535 (ch.stats.damagedFields + 1) } else ch.stats } := by
  unfold receiverDropout offerToRing
  rw [hf]
  dsimp only
  rw [hr]
  simp only [offerToRecord_snd, modRecord, satAdd]

/-- With no record in progress a dropout enters nothing. -/
theorem receiverDropout_none {ch : Channel} (k : Nat) (cause : Cause) (h : fillingRecord ch.ring = none) :
    receiverDropout k cause ch = ch := by
  unfold receiverDropout
  rw [h]

/-! ### A line judged (R18, R21) -/

/-- The receiver once a timing word has come, of which a valid one sets the loss count to 0 (R11, R26). -/
def clearedRecv (w : TimingWord) (x : Receiver) : Receiver := { x with lossCount := if w.valid then 0 else x.lossCount }

theorem clearLossCount_eq (w : TimingWord) (ch : Channel) :
    clearLossCount w ch = { ch with recv := clearedRecv w ch.recv } := by
  unfold clearLossCount clearedRecv
  split <;> rfl

/-- An active line's number (R17). -/
theorem activeLineOf_add {std : Standard} {k : Nat} (h : k < activeLines std) :
    activeLineOf std (firstActive std + k) = some k := by
  unfold activeLineOf
  rw [if_pos (by omega), Nat.add_sub_cancel_left]

/-- An active line of an accepted field at its end is received and judged (R17, R18). -/
theorem endLine_accepted {ch : Channel} {k : Nat} (line : LineIn) (ha : ch.recv.accepted = true)
    (hn : ch.recv.lineNo = firstActive ch.recv.fieldStd + k) (hk : k < activeLines ch.recv.fieldStd) :
    endLine line ch = emptyAssembly (judgeLine k line (receiveLine line ch)) := by
  have hw : inControlWindow ch.recv.fieldStd ch.recv.lineNo = false := by
    unfold inControlWindow
    rw [hn]
    simp
  unfold endLine
  rw [hw, hn, activeLineOf_add hk]
  simp [ha]

/-- What the judging of active line `k`, its own word and length `good` and its buffer with `room`, enters of it as
dropouts, each line counted once (R18, R19, R21). -/
def judgedDropouts (k : Nat) (good room : Bool) (ch : Channel) : Channel :=
  if good then (if room then ch else receiverDropout k .lost (countDropout ch))
  else if room then receiverDropout k .timing (countDropout ch)
  else receiverDropout k .lost (receiverDropout k .timing (countDropout ch))

theorem judgedDropouts_withRecv (k : Nat) (good room : Bool) (ch : Channel) (x : Receiver) :
    judgedDropouts k good room { ch with recv := x } = { judgedDropouts k good room ch with recv := x } := by
  have hcount : countDropout { ch with recv := x } = { countDropout ch with recv := x } := rfl
  unfold judgedDropouts
  cases good <;> cases room <;> simp [hcount, receiverDropout_withRecv]

@[simp] theorem judgedDropouts_recv (k : Nat) (good room : Bool) (ch : Channel) :
    (judgedDropouts k good room ch).recv = ch.recv := by
  have h := congrArg Channel.recv (judgedDropouts_withRecv k good room ch ch.recv)
  exact h

/-- The receiver once an active line of `words` has been judged: the line waits where there is room for it. -/
def bufferedRecv (k : Nat) (good : Bool) (words : List Nat) (x : Receiver) : Receiver :=
  { x with
    assembly := []
    buffer := if decide (x.buffer.length < 2) then x.buffer ++ [⟨k, words, !good⟩] else x.buffer }

/-- An active line judged: its dropouts, and its place in the buffer (R18, R21). -/
theorem judgeLine_eq (k : Nat) (line : LineIn) (ch : Channel) : emptyAssembly (judgeLine k line ch) =
    { judgedDropouts k (goodLine ch.recv line) (decide (ch.recv.buffer.length < 2)) ch with
      recv := bufferedRecv k (goodLine ch.recv line) ch.recv.assembly ch.recv } := by
  have hcount : (countDropout ch).recv = ch.recv := rfl
  unfold judgeLine offerLine judgedDropouts bufferedRecv emptyAssembly
  by_cases hg : goodLine ch.recv line = true
  · by_cases hr : ch.recv.buffer.length < 2 <;> simp [hg, hr, hcount]
  · by_cases hr : ch.recv.buffer.length < 2 <;> simp [hg, hr, hcount]

/-- An active line of an accepted field at its end, which a timing word marks: its words join the buffer as R18 assembles
them (R17 to R21). -/
theorem endLine_buffered {w : TimingWord} {ch : Channel} {k : Nat} {line : LineIn} {words : List Nat}
    (ha : ch.recv.accepted = true) (hn : ch.recv.lineNo = firstActive ch.recv.fieldStd + k)
    (hk : k < activeLines ch.recv.fieldStd) (hwords : assembleLine ch.recv.fieldStd line = words) :
    endLine line (clearLossCount w ch) =
      { judgedDropouts k (goodLine ch.recv line) (decide (ch.recv.buffer.length < 2)) ch with
        recv := bufferedRecv k (goodLine ch.recv line) words (clearedRecv w ch.recv) } := by
  rw [clearLossCount_eq, endLine_accepted (ch := { ch with recv := clearedRecv w ch.recv }) line ha hn hk, judgeLine_eq]
  unfold receiveLine
  rw [show assembleLine (clearedRecv w ch.recv).fieldStd line = words from hwords]
  dsimp only
  rw [judgedDropouts_withRecv]
  rfl

/-! ### Other lines (R17, R23) -/

/-- A window line is handed on when it begins with the marker's first word (R23). -/
theorem handOn_eq {line : LineIn} {ch : Channel} {ws : List LineWord} (h : WindowPart ch.recv.fieldStd line ws) :
    handOn line ch = { ch with pku := { ch.pku with
      handed := ch.pku.handed ++ if ws[0]? = some 0x2AA then [ws] else [] } } := by
  unfold handOn
  rw [windowWords_eq h]
  cases ws with
  | nil => simp
  | cons w ws =>
    have hmark : marker1 = 682#10 := rfl
    by_cases hw : w = 682#10 <;> simp [hmark, hw]

/-- A line that is no active line of an accepted field, at its end (R17, R23). -/
theorem endLine_other {line : LineIn} {ch : Channel} {first : Nat} {ws : List LineWord}
    (hfirst : first = firstActive ch.recv.fieldStd) (hws : WindowPart ch.recv.fieldStd line ws)
    (h : ch.recv.lineNo < first ∨ first + activeLines ch.recv.fieldStd ≤ ch.recv.lineNo ∨ ch.recv.accepted = false) :
    endLine line ch = { ch with
      recv := { ch.recv with assembly := if first ≤ ch.recv.lineNo ∧
        ch.recv.lineNo < first + activeLines ch.recv.fieldStd then [] else ch.recv.assembly }
      pku := { ch.pku with handed := ch.pku.handed ++
        if first - 4 ≤ ch.recv.lineNo ∧ ch.recv.lineNo < first ∧ ws[0]? = some 0x2AA then [ws] else [] } } := by
  subst hfirst
  unfold endLine inControlWindow activeLineOf
  by_cases hwin : firstActive ch.recv.fieldStd - 4 ≤ ch.recv.lineNo ∧ ch.recv.lineNo < firstActive ch.recv.fieldStd
  · obtain ⟨hlo, hhi⟩ := hwin
    have hact : ¬ (firstActive ch.recv.fieldStd ≤ ch.recv.lineNo ∧
      ch.recv.lineNo < firstActive ch.recv.fieldStd + activeLines ch.recv.fieldStd) := by omega
    simp only [hlo, hhi, decide_true, Bool.and_self, if_true, true_and, if_neg hact]
    rw [handOn_eq hws]
  · have hnot : ¬ (firstActive ch.recv.fieldStd - 4 ≤ ch.recv.lineNo ∧
        ch.recv.lineNo < firstActive ch.recv.fieldStd ∧ ws[0]? = some 0x2AA) := fun ⟨a, b, _⟩ => hwin ⟨a, b⟩
    have hwin' : ¬ (decide (firstActive ch.recv.fieldStd - 4 ≤ ch.recv.lineNo) &&
        decide (ch.recv.lineNo < firstActive ch.recv.fieldStd)) = true := by simpa using hwin
    rw [if_neg hwin', if_neg hnot, List.append_nil]
    by_cases hact : firstActive ch.recv.fieldStd ≤ ch.recv.lineNo ∧
        ch.recv.lineNo < firstActive ch.recv.fieldStd + activeLines ch.recv.fieldStd
    · have hacc : ch.recv.accepted = false := by
        rcases h with h | h | h
        · omega
        · omega
        · exact h
      rw [if_pos hact, if_pos hact]
      dsimp only
      rw [if_neg (by rw [hacc]; exact Bool.false_ne_true)]
      unfold emptyAssembly receiveLine
      generalize assembleLine ch.recv.fieldStd line = words
      rfl
    · simp only [if_neg hact]

/-! ### The grant behind a line (R51) -/

/-- A grant moves at most the line buffer of a receiver. -/
theorem arbitrate_recv (s : State) (c : Chan) :
    ∃ buffer, ((arbitrate s).ch c).recv = { (s.ch c).recv with buffer := buffer } := by
  have hgrant : ∀ ch : Channel, ∃ buffer, (grantWriteTo ch).recv = { ch.recv with buffer := buffer } := fun ch => by
    unfold grantWriteTo
    split
    · exact ⟨_, rfl⟩
    · exact ⟨_, rfl⟩
  rcases arbitrate_cases s with h | ⟨d, slot, l, -, -, h⟩ | ⟨d, src, role, k, -, -, -, h⟩ <;> rw [h]
  · exact ⟨_, rfl⟩
  · show ∃ buffer, ((s.modCh d grantWriteTo).ch c).recv = _
    by_cases hc : c = d
    · subst hc; rw [State.ch_modCh_same]; exact hgrant _
    · rw [State.ch_modCh_ne _ hc]; exact ⟨_, rfl⟩
  · show ∃ buffer, ((s.modCh d grantReadTo).ch c).recv = _
    by_cases hc : c = d
    · subst hc; rw [State.ch_modCh_same]; exact ⟨_, rfl⟩
    · rw [State.ch_modCh_ne _ hc]; exact ⟨_, rfl⟩

/-- Every channel stands in the rotation (R51). -/
theorem mem_rotation (last c : Chan) : c ∈ rotation last := by
  cases last <;> cases c <;> decide

/-- Among channels of which one alone asks, that one is found. -/
theorem findSome?_of_only {α β : Type} {f : α → Option β} {l : List α} {a : α} {b : β} (ha : a ∈ l)
    (hf : f a = some b) (h : ∀ x, x ≠ a → f x = none) : l.findSome? f = some b := by
  induction l with
  | nil => simp at ha
  | cons x l ih =>
    rw [List.findSome?_cons]
    by_cases hx : x = a
    · rw [hx, hf]
    · rw [h x hx]
      exact ih ((List.mem_cons.1 ha).resolve_left (Ne.symm hx))

/-- An IDLE arbiter grants the only line that waits (R21, R51). -/
theorem arbitrate_only {s : State} {c : Chan} {r : FieldRecord} {l : BufLine} (hb : s.arbiter.burst = none)
    (hl : (s.ch c).recv.buffer = [l]) (hr : fillingRecord (s.ch c).ring = some r)
    (h : ∀ e, e ≠ c → writeRequest (s.ch e) = none) :
    (arbitrate s).arbiter = ⟨some (.write c r.slot l.line l.words), c, s.arbiter.lastRead⟩ ∧
      ((arbitrate s).ch c).recv.buffer = [] := by
  have hreq : writeRequest (s.ch c) = some (r.slot, l) := by
    unfold writeRequest
    rw [hl, hr]
  have hnext : nextWriter s = some (c, r.slot, l) :=
    findSome?_of_only (mem_rotation _ c) (by rw [hreq]; rfl) (fun e he => by rw [h e he]; rfl)
  have hgrant : (grantWriteTo (s.ch c)).recv.buffer = [] := by
    unfold grantWriteTo
    rw [hl, hr]
  unfold arbitrate
  rw [hb]
  dsimp only
  rw [hnext]
  refine ⟨rfl, ?_⟩
  show ((s.modCh c grantWriteTo).ch c).recv.buffer = []
  rw [State.ch_modCh_same, hgrant]

/-! ### An ordinary line start (R11, R16) -/

/-- A timing word that begins no field, ahead of the flywheel line (R11, R13): the line before it ends as `ch`, an idle
arbiter grants, and of the receiver's items a grant moves its buffer at most. -/
theorem exec_timingWord_ordinary {c : Chan} {dt : Nat} {w : TimingWord} {line : LineIn} {s a : State} {ch : Channel}
    (hin : (s.ch c).recv.state = .inField) (hw : (w.valid && w.fieldStart) = false)
    (hf : (s.ch c).recv.lineNo + 1 ≠ flywheelLine (s.ch c).recv.fieldStd)
    (hend : endLine line (clearLossCount w (s.ch c)) = ch)
    (ha : a = arbitrate { s.setCh c ch with now := s.now + dt }) :
    exec (.timingWord c dt w line) s = .next (a.setCh c (nextLine w (a.ch c))) ∧
      ∃ buffer, (a.ch c).recv = { ch.recv with buffer := buffer } := by
  have hch : (({ s with now := s.now + dt } : State).modCh c (clearLossCount w)).ch c = clearLossCount w (s.ch c) :=
    State.ch_modCh_same _ _ _
  have hrecv : (clearLossCount w (s.ch c)).recv.state = .inField ∧
      (clearLossCount w (s.ch c)).recv.lineNo + 1 ≠ flywheelLine (clearLossCount w (s.ch c)).recv.fieldStd := by
    rw [clearLossCount_eq]; exact ⟨hin, hf⟩
  have hset : (({ s with now := s.now + dt } : State).modCh c (clearLossCount w)).modCh c (endLine line) =
      { s.setCh c ch with now := s.now + dt } := by
    rw [State.modCh_eq, hch, State.modCh_eq, State.setCh_setCh, hend]
    rfl
  constructor
  · show Host.Outcome.next (lineStart c w line (({ s with now := s.now + dt } : State).modCh c (clearLossCount w))) = _
    unfold lineStart
    rw [hch, hrecv.1]
    dsimp only
    rw [hw, if_neg Bool.false_ne_true, if_neg hrecv.2, hset, ha, State.modCh_eq]
  · have hc : ({ s.setCh c ch with now := s.now + dt } : State).ch c = ch := State.ch_setCh_same s c ch
    rw [ha]
    obtain ⟨buffer, h⟩ := arbitrate_recv { s.setCh c ch with now := s.now + dt } c
    exact ⟨buffer, by rw [h, hc]⟩

/-- With the vote closed an ordinary line start moves the line number on (R11, R16). -/
theorem nextLine_closed {w : TimingWord} {ch : Channel} (h : ch.recv.voteClosed = true) :
    nextLine w ch = { ch with recv := { ch.recv with lineNo := ch.recv.lineNo + 1, lineValid := w.valid } } := by
  unfold nextLine voteAtLine
  rw [if_pos h]

/-- The receiver at the next line, its vote open, with a valid word's indication in the vote but at line V (R16). -/
def votedRecv (w : TimingWord) (first : Nat) (x : Receiver) : Receiver :=
  { x with
    lineNo := x.lineNo + 1
    lineValid := w.valid
    vote := if w.valid = true ∧ x.lineNo + 1 ≠ first then x.vote ++ [w.parity] else x.vote }

/-- With the vote open an ordinary line start lets a valid word vote, and closes the vote at line V and at the third
indication (R16). -/
theorem nextLine_open {w : TimingWord} {ch : Channel} {first : Nat} (h : ch.recv.voteClosed = false)
    (hfirst : first = firstActive ch.recv.fieldStd) : nextLine w ch =
      if ch.recv.lineNo + 1 = first ∨ (w.valid = true ∧ (votedRecv w first ch.recv).vote.length = 3) then
        closeVote { ch with recv := votedRecv w first ch.recv }
      else { ch with recv := votedRecv w first ch.recv } := by
  subst hfirst
  unfold nextLine voteAtLine
  rw [if_neg (by simp [h])]
  by_cases hv : ch.recv.lineNo + 1 = firstActive ch.recv.fieldStd
  · rw [if_pos hv, if_pos (.inl hv)]
    simp [votedRecv, hv]
  · rw [if_neg hv]
    by_cases hval : w.valid = true
    · simp only [votedRecv, joinVote, hval, hv, ne_eq, not_false_eq_true, and_self, true_and, false_or, if_true]
    · simp [votedRecv, hval, hv]

/-- The closing of a vote (R16), by its outcome. -/
theorem closeVote_eq {ch : Channel} {p : Parity} {v : VoteResult}
    (h : decideParity ch.recv.vote ch.recv.prevParity = (p, v)) : closeVote ch = { ch with
      recv := { ch.recv with voteClosed := true, prevParity := some p }
      ring := if ch.recv.accepted then ch.ring.map (fun r =>
        if r.state = .filling then { r with parity := some p, vote := some v } else r) else ch.ring
      stats := if ch.recv.accepted = true ∧ v = .twoOfThree then
        { ch.stats with parityDisputes := min 65535 (ch.stats.parityDisputes + 1) } else ch.stats } := by
  unfold closeVote
  rw [h]
  by_cases ha : ch.recv.accepted = true
  · simp only [ha, if_true, true_and, modFilling, satAdd]
  · simp [ha]

end Sys2Proof.Machine
end

section
/-! SUPPORT. The clauses of GoodLineIsBuffered, one by one. -/

namespace Sys2Proof.Machine

open Sys2Proof

/-- The flywheel line stands behind every active line (R13). -/
theorem active_ne_flywheelLine {std : Standard} {k : Nat} (h : k < activeLines std) :
    firstActive std + k + 1 ≠ flywheelLine std := by
  unfold flywheelLine
  omega

/-- An active line of an accepted field (R17 to R21, R51). -/
theorem exec_timingWord_active {c : Chan} {dt : Nat} {w : TimingWord} {line : LineIn} {s a : State} {k : Nat}
    {good room : Bool} {words : List Nat} {d ch : Channel} (hin : (s.ch c).recv.state = .inField)
    (hacc : (s.ch c).recv.accepted = true) (hclosed : (s.ch c).recv.voteClosed = true)
    (hw : (w.valid && w.fieldStart) = false) (hline : (s.ch c).recv.lineNo = firstActive (s.ch c).recv.fieldStd + k)
    (hk : k < activeLines (s.ch c).recv.fieldStd) (hgood : good = goodLine (s.ch c).recv line)
    (hroom : room = decide ((s.ch c).recv.buffer.length < 2))
    (hwords : assembleLine (s.ch c).recv.fieldStd line = words) (hd : d = judgedDropouts k good room (s.ch c))
    (hch : ch = { d with recv := bufferedRecv k good words (clearedRecv w (s.ch c).recv) })
    (ha : a = arbitrate { s.setCh c ch with now := s.now + dt }) :
    exec (.timingWord c dt w line) s = .next (a.setCh c { a.ch c with recv := { (a.ch c).recv with
        lineNo := (s.ch c).recv.lineNo + 1, lineValid := w.valid } }) ∧
      ∀ r, s.arbiter.burst = none → (s.ch c).recv.buffer = [] → fillingRecord d.ring = some r →
        (∀ e, e ≠ c → writeRequest (s.ch e) = none) →
        a.arbiter = ⟨some (.write c r.slot k words), c, s.arbiter.lastRead⟩ ∧ (a.ch c).recv.buffer = [] := by
  have hend : endLine line (clearLossCount w (s.ch c)) = ch := by
    rw [endLine_buffered hacc hline hk hwords, hch, hd, hgood, hroom]
  obtain ⟨hexec, buffer, hrecv⟩ := exec_timingWord_ordinary (a := a) (dt := dt) hin hw
    (by rw [hline]; exact active_ne_flywheelLine hk) hend ha
  have hbase : ch.recv = bufferedRecv k good words (clearedRecv w (s.ch c).recv) := by rw [hch]
  constructor
  · have hno : (a.ch c).recv.lineNo = (s.ch c).recv.lineNo := by rw [hrecv, hbase]; rfl
    rw [hexec, nextLine_closed (by rw [hrecv, hbase]; exact hclosed), hno]
  · intro r hburst hbuffer hr hothers
    have hmine : ({ s.setCh c ch with now := s.now + dt } : State).ch c = ch := State.ch_setCh_same s c ch
    have hother : ∀ e, e ≠ c → ({ s.setCh c ch with now := s.now + dt } : State).ch e = s.ch e := fun e he =>
      State.ch_setCh_ne s he ch
    have hwaits : ch.recv.buffer = [⟨k, words, !good⟩] := by
      rw [hbase]
      simp [bufferedRecv, clearedRecv, hbuffer]
    have hring : ch.ring = d.ring := by rw [hch]
    rw [ha]
    refine arbitrate_only (s := { s.setCh c ch with now := s.now + dt }) (l := ⟨k, words, !good⟩) hburst ?_ ?_
      fun e he => ?_
    · rw [hmine]; exact hwaits
    · rw [hmine, hring]; exact hr
    · rw [hother e he]; exact hothers e he

/-- Every other line at its end, which a timing word marks (R17, R23). -/
theorem endLine_unbuffered {w : TimingWord} {ch : Channel} {line : LineIn} {first : Nat} {ws : List LineWord}
    (hfirst : first = firstActive ch.recv.fieldStd) (hws : WindowPart ch.recv.fieldStd line ws)
    (h : ch.recv.lineNo < first ∨ first + activeLines ch.recv.fieldStd ≤ ch.recv.lineNo ∨ ch.recv.accepted = false) :
    endLine line (clearLossCount w ch) = { ch with
      recv := { ch.recv with
        lossCount := if w.valid then 0 else ch.recv.lossCount
        assembly := if first ≤ ch.recv.lineNo ∧
          ch.recv.lineNo < first + activeLines ch.recv.fieldStd then [] else ch.recv.assembly }
      pku := { ch.pku with handed := ch.pku.handed ++
        if first - 4 ≤ ch.recv.lineNo ∧ ch.recv.lineNo < first ∧ ws[0]? = some 0x2AA then [ws] else [] } } := by
  rw [clearLossCount_eq]
  exact endLine_other (ch := { ch with recv := clearedRecv w ch.recv }) hfirst hws h

/-- The vote of R16 on each of its outcomes. -/
theorem decideParity_votes (a b : Parity) (prev : Option Parity) (other : Parity) (hab : a ≠ b)
    (hother : other = (match prev with | some .top => .bottom | some .bottom => .top | none => .top)) :
    decideParity [a, a, a] prev = (a, .threeOfThree) ∧ decideParity [a, a, b] prev = (a, .twoOfThree) ∧
    decideParity [a, b, a] prev = (a, .twoOfThree) ∧ decideParity [b, a, a] prev = (a, .twoOfThree) ∧
    decideParity [a, a] prev = (a, .twoOfThree) ∧ decideParity [a, b] prev = (other, .twoOfThree) ∧
    decideParity [a] prev = (other, .twoOfThree) := by
  have he : prev.elim .top opposite = other := by
    rw [hother]
    rcases prev with _ | p
    · rfl
    · cases p <;> rfl
  simp [decideParity, hab, hab.symm, he]

/-- The receiver at the next line of any field: an open vote takes a valid word's indication but at line V (R16). -/
def movedRecv (w : TimingWord) (first : Nat) (x : Receiver) : Receiver :=
  { x with
    lineNo := x.lineNo + 1
    lineValid := w.valid
    vote := if x.voteClosed = false ∧ w.valid = true ∧ x.lineNo + 1 ≠ first then x.vote ++ [w.parity] else x.vote }

theorem movedRecv_open {x : Receiver} (h : x.voteClosed = false) (w : TimingWord) (first : Nat) :
    movedRecv w first x = votedRecv w first x := by
  simp only [movedRecv, votedRecv, h, true_and]

/-- An ordinary line start that closes no vote (R11, R16). -/
theorem nextLine_moved {w : TimingWord} {ch : Channel} {first : Nat} (hfirst : first = firstActive ch.recv.fieldStd)
    (h : ch.recv.voteClosed = true ∨ (ch.recv.lineNo + 1 ≠ first ∧
      (w.valid = false ∨ (movedRecv w first ch.recv).vote.length ≠ 3))) :
    nextLine w ch = { ch with recv := movedRecv w first ch.recv } := by
  cases hc : ch.recv.voteClosed with
  | true =>
    rw [nextLine_closed hc]
    simp [movedRecv, hc]
  | false =>
    obtain ⟨hv, hcount⟩ := h.resolve_left (by simp [hc])
    rw [movedRecv_open hc] at hcount ⊢
    rw [nextLine_open hc hfirst, if_neg]
    rintro (hline | ⟨hval, h3⟩)
    · exact hv hline
    · exact hcount.elim (by simp [hval]) (fun hne => hne h3)

/-- An ordinary line start that closes the vote (R16): at line V, or with the third indication. -/
theorem nextLine_decided {w : TimingWord} {ch : Channel} {first : Nat} {p : Parity} {v : VoteResult}
    (hfirst : first = firstActive ch.recv.fieldStd) (hc : ch.recv.voteClosed = false)
    (h : ch.recv.lineNo + 1 = first ∨ (w.valid = true ∧ (movedRecv w first ch.recv).vote.length = 3))
    (hd : decideParity (movedRecv w first ch.recv).vote ch.recv.prevParity = (p, v)) :
    nextLine w ch = { ch with
      recv := { movedRecv w first ch.recv with voteClosed := true, prevParity := some p }
      ring := if ch.recv.accepted then ch.ring.map (fun r =>
        if r.state = .filling then { r with parity := some p, vote := some v } else r) else ch.ring
      stats := if ch.recv.accepted = true ∧ v = .twoOfThree then
        { ch.stats with parityDisputes := min 65535 (ch.stats.parityDisputes + 1) } else ch.stats } := by
  rw [movedRecv_open hc] at h hd ⊢
  rw [nextLine_open hc hfirst, if_pos h, closeVote_eq (ch := { ch with recv := votedRecv w first ch.recv }) hd]
  rfl

/-- Settles O32: an active line is judged and buffered, its dropouts entered by R37; any other line is handed on or let go,
and the vote taken and closed by R16. -/
theorem goodLineIsBuffered : Obligations.GoodLineIsBuffered := by
  refine ⟨?_, fun ch k cause => ⟨receiverDropout_none k cause, fun r => receiverDropout_filling k cause⟩,
    fun r k cause => offerToRecord_fst k cause r, ?_, decideParity_votes⟩
  · intro c dt w line s std k good room counted d hin hacc hclosed hw hstd hline hk hgood hroom hcounted hd
    subst hstd
    have hjudged : d = judgedDropouts k good room (s.ch c) := by
      rw [hd, hcounted]
      clear hgood hroom
      cases good <;> cases room <;> rfl
    obtain ⟨words, hwords⟩ : ∃ words, assembleLine (s.ch c).recv.fieldStd line = words := ⟨_, rfl⟩
    have hassembled := assembled_assembleLine (s.ch c).recv.fieldStd line
    rw [hwords] at hassembled
    have hbuffered : bufferedRecv k good words (clearedRecv w (s.ch c).recv) = { (s.ch c).recv with
          lossCount := if w.valid then 0 else (s.ch c).recv.lossCount
          assembly := []
          buffer := if room then (s.ch c).recv.buffer ++ [⟨k, words, !good⟩] else (s.ch c).recv.buffer } := by
      rw [hroom]
      rfl
    have hactive := exec_timingWord_active (dt := dt) hin hacc hclosed hw hline hk hgood hroom hwords hjudged rfl rfl
    rw [hbuffered] at hactive
    exact ⟨words, _, hassembled, rfl, hactive⟩
  · intro c dt w line s a old moved first ws pku hold hin hw hfirst hother hfly hws hpku ha hmoved
    subst hold hpku
    have hend := endLine_unbuffered (w := w) (ch := s.ch c) hfirst hws hother
    obtain ⟨hexec, buffer, hrecv⟩ := exec_timingWord_ordinary hin hw hfly hend ha
    have hno : (a.ch c).recv.lineNo = (s.ch c).recv.lineNo := by rw [hrecv]
    have hvote : (a.ch c).recv.vote = (s.ch c).recv.vote := by rw [hrecv]
    have hopen : (a.ch c).recv.voteClosed = (s.ch c).recv.voteClosed := by rw [hrecv]
    have hprev : (a.ch c).recv.prevParity = (s.ch c).recv.prevParity := by rw [hrecv]
    have hacc : (a.ch c).recv.accepted = (s.ch c).recv.accepted := by rw [hrecv]
    have hstd : (a.ch c).recv.fieldStd = (s.ch c).recv.fieldStd := by rw [hrecv]
    have hmove : moved = movedRecv w first (a.ch c).recv := by
      rw [hmoved, ← hno, ← hvote, ← hopen]
      rfl
    rw [← hstd] at hfirst
    rw [hexec, hmove, ← hopen, ← hno]
    refine ⟨fun h => by rw [nextLine_moved hfirst h], fun p v hc h hd => ?_⟩
    rw [← hprev] at hd
    rw [nextLine_decided hfirst hc h hd, hacc]

end Sys2Proof.Machine
end

section
/-! SUPPORT. Dropouts offered in a row to the record in progress (R18 to R20, R37), and the closing of a field (R14, R36). -/

namespace Sys2Proof.Machine

open Sys2Proof

/-! ### Offers to one record (R20, R37) -/

/-- A record offered dropouts one after the other. -/
def offerAll (offers : List (Nat × Cause)) (r : FieldRecord) : FieldRecord :=
  offers.foldl (fun x o => (offerToRecord o.1 o.2 x).1) r

theorem offerAll_append (l l' : List (Nat × Cause)) (r : FieldRecord) :
    offerAll (l ++ l') r = offerAll l' (offerAll l r) := List.foldl_append

theorem offerAll_single (o : Nat × Cause) (r : FieldRecord) : offerAll [o] r = (offerToRecord o.1 o.2 r).1 := rfl

/-- An offer's outcomes (R37): the line is listed, it is placed, or it finds no place. -/
theorem offerToRecord_outcomes (k : Nat) (cause : Cause) (r : FieldRecord) :
    ((∃ d ∈ r.dropouts, d.line = k) ∧
      (offerToRecord k cause r).1 = { r with dropouts := r.dropouts.map (fun d => recause d k cause) }) ∨
    ((∀ d ∈ r.dropouts, d.line ≠ k) ∧ r.dropouts.length < 16 ∧
      (offerToRecord k cause r).1 = { r with dropouts := placeDropout ⟨k, cause⟩ r.dropouts }) ∨
    ((∀ d ∈ r.dropouts, d.line ≠ k) ∧ 16 ≤ r.dropouts.length ∧
      (offerToRecord k cause r).1 = { r with damaged := true }) := by
  unfold offerToRecord offerDropout
  by_cases hlisted : ∃ d ∈ r.dropouts, d.line = k
  · have hany : r.dropouts.any (fun d => d.line == k) = true := by simpa using hlisted
    rw [if_pos hany]
    exact .inl ⟨hlisted, rfl⟩
  · have hany : ¬ r.dropouts.any (fun d => d.line == k) = true := by simpa using hlisted
    have hne : ∀ d ∈ r.dropouts, d.line ≠ k := by simpa using hlisted
    rw [if_neg hany]
    by_cases hroom : r.dropouts.length < 16
    · rw [if_pos hroom]
      exact .inr (.inl ⟨hne, hroom, rfl⟩)
    · rw [if_neg hroom]
      exact .inr (.inr ⟨hne, by omega, rfl⟩)

/-- An offer changes a record's dropout list and its damaged flag at most. -/
theorem offerToRecord_eq (k : Nat) (cause : Cause) (r : FieldRecord) : (offerToRecord k cause r).1 =
    { r with dropouts := (offerToRecord k cause r).1.dropouts, damaged := (offerToRecord k cause r).1.damaged } := by
  rcases offerToRecord_outcomes k cause r with ⟨-, h⟩ | ⟨-, -, h⟩ | ⟨-, -, h⟩ <;> rw [h]

theorem offerAll_eq (l : List (Nat × Cause)) (r : FieldRecord) : offerAll l r =
    { r with dropouts := (offerAll l r).dropouts, damaged := (offerAll l r).damaged } := by
  induction l using List.reverseRecOn with
  | nil => rfl
  | append_singleton l o ih =>
    rw [offerAll_append, offerAll_single, offerToRecord_eq]
    rw [ih]

@[simp] theorem offerAll_num (l : List (Nat × Cause)) (r : FieldRecord) : (offerAll l r).num = r.num := by
  rw [offerAll_eq]

@[simp] theorem offerAll_state (l : List (Nat × Cause)) (r : FieldRecord) : (offerAll l r).state = r.state := by
  rw [offerAll_eq]

/-- An offer leaves the damaged flag set, and sets it newly as its second part says (R20). -/
theorem offerToRecord_damaged (k : Nat) (cause : Cause) (r : FieldRecord) :
    (offerToRecord k cause r).1.damaged = (r.damaged || (offerToRecord k cause r).2) := by
  rcases offerToRecord_cases k cause r with ⟨ds, -, h⟩ | ⟨-, h⟩ <;> rw [h] <;> cases r.damaged <;> rfl

theorem offerToRecord_snd_undamaged {k : Nat} {cause : Cause} {r : FieldRecord}
    (h : (offerToRecord k cause r).2 = true) : r.damaged = false :=
  ((offerToRecord_snd k cause r).1 h).1

/-! ### Offers in a row, as R19, R20 and R37 describe them -/

theorem dropoutsOffered_nil (r : FieldRecord) : DropoutsOffered [] r r := by
  refine ⟨rfl, fun d hd => ⟨d, hd, rfl⟩, fun d hd => .inl hd, id, ?_, ?_⟩ <;> simp

section

variable {offers : List (Nat × Cause)} {r q : FieldRecord} {k : Nat} {cause : Cause}

/-- One more offer, of a line that is listed: it changes the line's cause at most (R37). -/
theorem dropoutsOffered_relist (h : DropoutsOffered offers r q) (hl : ∃ d ∈ q.dropouts, d.line = k) :
    DropoutsOffered (offers ++ [(k, cause)]) r { q with dropouts := q.dropouts.map (fun d => recause d k cause) } := by
  obtain ⟨heq, hkept, hnew, hlen, hdam, hfull⟩ := h
  have hlines : ∀ j : Nat, (∀ d ∈ q.dropouts.map (fun d => recause d k cause), d.line ≠ j) ↔
      ∀ d ∈ q.dropouts, d.line ≠ j := fun j => by simp
  have hmine : ¬ ∀ d ∈ q.dropouts, d.line ≠ k := by simpa using hl
  refine ⟨by rw [heq], fun d hd => ?_, fun d hd => ?_, fun h16 => by simpa using hlen h16, ?_, fun p hp => ?_⟩
  · obtain ⟨d', hd', hline⟩ := hkept d hd
    exact ⟨_, List.mem_map_of_mem hd', by simpa using hline⟩
  · obtain ⟨x, hx, rfl⟩ := List.mem_map.1 hd
    unfold recause
    split
    · next hc =>
      obtain ⟨hk, -, rfl⟩ := hc
      exact .inr (by simp [hk])
    · exact (hnew x hx).imp_right fun hmem => by simp [hmem]
  · simp only [hlines, hdam, List.mem_append, List.mem_singleton, or_and_right, exists_or, exists_eq_left, hmine, or_false]
  · rw [hlines, List.length_map]
    rcases List.mem_append.1 hp with hp | hp
    · exact hfull p hp
    · obtain rfl := List.mem_singleton.1 hp
      exact fun hne => absurd hne hmine

/-- One more offer, of a line that is placed (R37): with a place free, every line offered before is listed. -/
theorem dropoutsOffered_place (h : DropoutsOffered offers r q) (hroom : q.dropouts.length < 16) :
    DropoutsOffered (offers ++ [(k, cause)]) r { q with dropouts := placeDropout ⟨k, cause⟩ q.dropouts } := by
  obtain ⟨heq, hkept, hnew, hlen, hdam, hfull⟩ := h
  have hmem : ∀ d, d ∈ placeDropout ⟨k, cause⟩ q.dropouts ↔ d = ⟨k, cause⟩ ∨ d ∈ q.dropouts := fun d => by
    rw [(placeDropout_perm _ _).mem_iff, List.mem_cons]
  have hearlier : ∀ p ∈ offers, ¬ ∀ d ∈ q.dropouts, d.line ≠ p.1 := fun p hp hne => by
    have := hfull p hp hne
    omega
  have hlisted : ∀ p ∈ offers ++ [(k, cause)], ¬ ∀ d ∈ placeDropout ⟨k, cause⟩ q.dropouts, d.line ≠ p.1 := by
    intro p hp hne
    rcases List.mem_append.1 hp with hp | hp
    · exact hearlier p hp fun d hd => hne d ((hmem d).2 (.inr hd))
    · obtain rfl := List.mem_singleton.1 hp
      exact hne _ ((hmem _).2 (.inl rfl)) rfl
  refine ⟨by rw [heq], fun d hd => ?_, fun d hd => ?_, fun _ => ?_, ?_, fun p hp hne => absurd hne (hlisted p hp)⟩
  · obtain ⟨d', hd', hline⟩ := hkept d hd
    exact ⟨d', (hmem d').2 (.inr hd'), hline⟩
  · rcases (hmem d).1 hd with rfl | hd
    · exact .inr (by simp)
    · exact (hnew d hd).imp_right fun hx => by simp [hx]
  · show (placeDropout ⟨k, cause⟩ q.dropouts).length ≤ 16
    rw [(placeDropout_perm _ _).length_eq, List.length_cons]
    omega
  · exact hdam.trans (or_congr_right
      ⟨fun ⟨p, hp, hne⟩ => absurd hne (hearlier p hp), fun ⟨p, hp, hne⟩ => absurd hne (hlisted p hp)⟩)

/-- One more offer, of a line that finds no place: it sets the damaged flag (R20, R37). -/
theorem dropoutsOffered_damage (h : DropoutsOffered offers r q) (hn : ∀ d ∈ q.dropouts, d.line ≠ k)
    (hno : 16 ≤ q.dropouts.length) : DropoutsOffered (offers ++ [(k, cause)]) r { q with damaged := true } := by
  obtain ⟨heq, hkept, hnew, hlen, -, -⟩ := h
  exact ⟨by rw [heq], hkept, fun d hd => (hnew d hd).imp_right fun hx => by simp [hx], hlen,
    ⟨fun _ => .inr ⟨(k, cause), by simp, hn⟩, fun _ => rfl⟩, fun _ _ _ => hno⟩

end

theorem dropoutsOffered_offerAll (offers : List (Nat × Cause)) (r : FieldRecord) :
    DropoutsOffered offers r (offerAll offers r) := by
  induction offers using List.reverseRecOn with
  | nil => exact dropoutsOffered_nil r
  | append_singleton l o ih =>
    rw [offerAll_append, offerAll_single]
    rcases offerToRecord_outcomes o.1 o.2 (offerAll l r) with ⟨hl, h⟩ | ⟨-, hroom, h⟩ | ⟨hn, hno, h⟩ <;> rw [h]
    · exact dropoutsOffered_relist ih hl
    · exact dropoutsOffered_place ih hroom
    · exact dropoutsOffered_damage ih hn hno

/-- Every line offered is listed, or the record is damaged (R20). -/
theorem listed_of_offered {offers : List (Nat × Cause)} {r q : FieldRecord} (h : DropoutsOffered offers r q)
    {o : Nat × Cause} (ho : o ∈ offers) : q.damaged = true ∨ ∃ d ∈ q.dropouts, d.line = o.1 := by
  obtain ⟨-, -, -, -, hdam, -⟩ := h
  by_cases hl : ∃ d ∈ q.dropouts, d.line = o.1
  · exact .inr hl
  · exact .inl (hdam.2 (.inr ⟨o, ho, by simpa using hl⟩))

/-! ### Lines that are lost (R19, R37) -/

/-- The record lists line `k` as LOST, or has no place for it. -/
def ListsLost (k : Nat) (r : FieldRecord) : Prop := r.damaged = true ∨ ∃ d ∈ r.dropouts, d.line = k ∧ d.cause = .lost

/-- Every entry of line `k` is TIMING or LOST. -/
def TimingOrLost (k : Nat) (r : FieldRecord) : Prop :=
  ∀ d ∈ r.dropouts, d.line = k → d.cause = .timing ∨ d.cause = .lost

theorem recause_of_lost {d : Dropout} (h : d.cause = .lost) (k : Nat) (cause : Cause) : recause d k cause = d := by
  unfold recause
  rw [if_neg (by simp [h])]

/-- A line listed as LOST stays so (R37). -/
theorem ListsLost.offer {k : Nat} {r : FieldRecord} (h : ListsLost k r) (j : Nat) (cause : Cause) :
    ListsLost k (offerToRecord j cause r).1 := by
  rcases h with h | ⟨d, hd, hk, hc⟩
  · exact .inl (by rw [offerToRecord_damaged, h, Bool.true_or])
  · rcases offerToRecord_outcomes j cause r with ⟨-, e⟩ | ⟨-, -, e⟩ | ⟨-, -, e⟩ <;> rw [e]
    · exact .inr ⟨d, List.mem_map.2 ⟨d, hd, recause_of_lost hc j cause⟩, hk, hc⟩
    · exact .inr ⟨d, (placeDropout_perm _ _).mem_iff.2 (List.mem_cons_of_mem _ hd), hk, hc⟩
    · exact .inl rfl

theorem ListsLost.offerAll {k : Nat} {r : FieldRecord} (h : ListsLost k r) (l : List (Nat × Cause)) :
    ListsLost k (offerAll l r) := by
  induction l using List.reverseRecOn with
  | nil => exact h
  | append_singleton l o ih =>
    rw [offerAll_append]
    exact ih.offer o.1 o.2

/-- A LOST offer brings no other cause than LOST (R37). -/
theorem TimingOrLost.offer {k : Nat} {r : FieldRecord} (h : TimingOrLost k r) (j : Nat) :
    TimingOrLost k (offerToRecord j .lost r).1 := by
  rcases offerToRecord_outcomes j .lost r with ⟨-, e⟩ | ⟨-, -, e⟩ | ⟨-, -, e⟩ <;> rw [e]
  · intro d hd hk
    obtain ⟨x, hx, rfl⟩ := List.mem_map.1 hd
    unfold recause at hk ⊢
    split
    · exact .inr rfl
    · next hc =>
      rw [if_neg hc] at hk
      exact h x hx hk
  · intro d hd hk
    rcases List.mem_cons.1 ((placeDropout_perm _ _).mem_iff.1 hd) with rfl | hd
    · exact .inr rfl
    · exact h d hd hk
  · exact h

theorem TimingOrLost.offerAll {k : Nat} {r : FieldRecord} (h : TimingOrLost k r) (l : List Nat) :
    TimingOrLost k (offerAll (l.map fun j => (j, Cause.lost)) r) := by
  induction l using List.reverseRecOn with
  | nil => exact h
  | append_singleton l j ih =>
    rw [List.map_append, offerAll_append]
    exact ih.offer j

/-- A line offered as LOST is listed as LOST, where it was listed as TIMING or LOST at most (R37). -/
theorem TimingOrLost.listsLost {k : Nat} {r : FieldRecord} (h : TimingOrLost k r) :
    ListsLost k (offerToRecord k .lost r).1 := by
  rcases offerToRecord_outcomes k .lost r with ⟨⟨d, hd, hk⟩, e⟩ | ⟨-, -, e⟩ | ⟨-, -, e⟩ <;> rw [e]
  · refine .inr ⟨recause d k .lost, List.mem_map_of_mem hd, by simpa using hk, ?_⟩
    rcases h d hd hk with hc | hc
    · unfold recause
      rw [if_pos ⟨hk, hc, rfl⟩]
    · rw [recause_of_lost hc, hc]
  · exact .inr ⟨⟨k, .lost⟩, (placeDropout_perm _ _).mem_iff.2 List.mem_cons_self, rfl, rfl⟩
  · exact .inl rfl

/-- A line among those offered as LOST, with other offers behind them. -/
theorem listsLost_offerAll {k : Nat} {r : FieldRecord} (h : TimingOrLost k r) {lost : List Nat} (hk : k ∈ lost)
    (rest : List (Nat × Cause)) : ListsLost k (offerAll ((lost.map fun j => (j, Cause.lost)) ++ rest) r) := by
  obtain ⟨before, behind, rfl⟩ := List.append_of_mem hk
  rw [List.map_append, List.map_cons, List.append_assoc, offerAll_append, List.cons_append, ← List.singleton_append,
    offerAll_append, offerAll_single]
  exact ((h.offerAll before).listsLost).offerAll _

/-! ### Offers to the field in progress, counted or not (R18, R19) -/

/-- A dropout of the field in progress, counted first when it is newly found (R18). -/
def enterDropout (ch : Channel) (o : Bool × Nat × Cause) : Channel :=
  receiverDropout o.2.1 o.2.2 (if o.1 then countDropout ch else ch)

/-- A dropout changes the ring and two counters at most. -/
theorem receiverDropout_eq (k : Nat) (cause : Cause) (ch : Channel) : receiverDropout k cause ch = { ch with
    ring := (receiverDropout k cause ch).ring
    stats := { ch.stats with damagedFields := (receiverDropout k cause ch).stats.damagedFields } } := by
  unfold receiverDropout offerToRing
  cases fillingRecord ch.ring with
  | none => rfl
  | some r =>
    dsimp only
    cases findRecord ch.ring r.num with
    | none => rfl
    | some q => dsimp only; split <;> rfl

/-- A number carried by a record of the ring is found. -/
theorem findRecord_of_mem {ring : List FieldRecord} {r : FieldRecord} (h : r ∈ ring) :
    ∃ q, findRecord ring r.num = some q := by
  cases hf : findRecord ring r.num with
  | some q => exact ⟨q, rfl⟩
  | none => exact absurd (List.find?_eq_none.1 hf r h) (by simp)

/-- A dropout is entered in the records of the number in progress (R19, R37). -/
theorem receiverDropout_ring {ch : Channel} {r : FieldRecord} (k : Nat) (cause : Cause)
    (h : fillingRecord ch.ring = some r) :
    (receiverDropout k cause ch).ring = modRecord r.num (fun x => (offerToRecord k cause x).1) ch.ring := by
  obtain ⟨q, hq⟩ := findRecord_of_mem (List.mem_of_find?_eq_some h)
  unfold receiverDropout offerToRing
  rw [h]
  dsimp only
  rw [hq]

/-- The record in progress behind a change of records that keeps their states. -/
theorem fillingRecord_modRecord {ring : List FieldRecord} {f : FieldRecord → FieldRecord} {r : FieldRecord}
    (hf : ∀ x, (f x).state = x.state) (h : fillingRecord ring = some r) :
    fillingRecord (modRecord r.num f ring) = some (f r) := by
  have hstate : ((fun x => decide (x.state = .filling)) ∘ fun x : FieldRecord => if x.num = r.num then f x else x) =
      fun x => decide (x.state = .filling) := funext fun x => by
    dsimp only [Function.comp]
    split
    · rw [hf]
    · rfl
  unfold fillingRecord modRecord at *
  rw [List.find?_map, hstate, h, Option.map_some, if_pos rfl]

/-- The record of a number behind a change of records that keeps their numbers. -/
theorem findRecord_modRecord {ring : List FieldRecord} {f : FieldRecord → FieldRecord} {r : FieldRecord}
    (hf : ∀ x, (f x).num = x.num) (h : findRecord ring r.num = some r) :
    findRecord (modRecord r.num f ring) r.num = some (f r) := by
  have hnum : ((fun x => x.num == r.num) ∘ fun x : FieldRecord => if x.num = r.num then f x else x) =
      fun x => x.num == r.num := funext fun x => by
    dsimp only [Function.comp]
    split
    · rw [hf]
    · rfl
  unfold findRecord modRecord at *
  rw [List.find?_map, hnum, h, Option.map_some, if_pos rfl]

/-- Changes of the records of one number in a row. -/
theorem modRecord_modRecord {n : Nat} {f g : FieldRecord → FieldRecord} (hf : ∀ x, (f x).num = x.num)
    (ring : List FieldRecord) : modRecord n g (modRecord n f ring) = modRecord n (fun x => g (f x)) ring := by
  unfold modRecord
  rw [List.map_map]
  refine List.map_congr_left fun x _ => ?_
  by_cases hx : x.num = n <;> simp [hx, hf]

/-- What dropouts `l` of the field in progress, entered one after the other, do to a channel (R18 to R20, R38). -/
structure DropoutsEntered (l : List (Bool × Nat × Cause)) (ch ch' : Channel) : Prop where
  rest    : ch' = { ch with ring := ch'.ring, stats := { ch.stats with
              dropoutLines := ch'.stats.dropoutLines, damagedFields := ch'.stats.damagedFields } }
  counted : ch.stats.dropoutLines ≤ 65535 →
              ch'.stats.dropoutLines = min 65535 (ch.stats.dropoutLines + l.countP Prod.fst)
  idle    : fillingRecord ch.ring = none → ch'.ring = ch.ring ∧ ch'.stats.damagedFields = ch.stats.damagedFields
  ring    : ∀ r, fillingRecord ch.ring = some r → ch'.ring = modRecord r.num (offerAll (l.map Prod.snd)) ch.ring
  damaged : ∀ r, fillingRecord ch.ring = some r → findRecord ch.ring r.num = some r → ch'.stats.damagedFields =
              if r.damaged = false ∧ (offerAll (l.map Prod.snd) r).damaged = true then
                min 65535 (ch.stats.damagedFields + 1) else ch.stats.damagedFields

theorem dropoutsEntered_nil (ch : Channel) : DropoutsEntered [] ch ch where
  rest := rfl
  counted h := by simp only [List.countP_nil]; omega
  idle _ := ⟨rfl, rfl⟩
  ring r _ := by
    have hid : (fun x : FieldRecord => if x.num = r.num then offerAll [] x else x) = id := funext fun x => by simp [offerAll]
    simp only [List.map_nil, modRecord]
    rw [hid, List.map_id]
  damaged r _ _ := by
    rw [if_neg]
    rintro ⟨h, h'⟩
    exact absurd h' (by simp [offerAll, h])

/-- The damaged count behind one more offer: it advances with the offer that first damages the record (R20). -/
theorem damaged_append {l : List (Nat × Cause)} {r : FieldRecord} (o : Nat × Cause) {n m : Nat}
    (hn : n = if r.damaged = false ∧ (offerAll l r).damaged = true then min 65535 (m + 1) else m) :
    (if (offerToRecord o.1 o.2 (offerAll l r)).2 = true then min 65535 (n + 1) else n) =
      if r.damaged = false ∧ (offerAll (l ++ [o]) r).damaged = true then min 65535 (m + 1) else m := by
  have hkept : r.damaged = true → (offerAll l r).damaged = true := fun h =>
    (dropoutsOffered_offerAll l r).2.2.2.2.1.2 (.inl h)
  rw [offerAll_append, offerAll_single, offerToRecord_damaged, hn]
  by_cases hq : (offerAll l r).damaged = true
  · have hnew : ¬ (offerToRecord o.1 o.2 (offerAll l r)).2 = true := fun h =>
      absurd (offerToRecord_snd_undamaged h) (by simp [hq])
    simp [hq, hnew]
  · have hr : r.damaged = false := by simpa using fun h => hq (hkept h)
    simp [hq, hr]

/-- One more dropout entered. -/
theorem DropoutsEntered.append {l : List (Bool × Nat × Cause)} {ch ch' : Channel} (h : DropoutsEntered l ch ch')
    (o : Bool × Nat × Cause) : DropoutsEntered (l ++ [o]) ch (enterDropout ch' o) := by
  obtain ⟨x, hx, hxcount⟩ : ∃ x, enterDropout ch' o = receiverDropout o.2.1 o.2.2 x ∧ x = { ch' with
      stats := { ch'.stats with dropoutLines := if o.1 then min 65535 (ch'.stats.dropoutLines + 1)
        else ch'.stats.dropoutLines } } := by
    refine ⟨_, rfl, ?_⟩
    cases o.1 <;> rfl
  have hring : x.ring = ch'.ring := by rw [hxcount]
  have hentered := receiverDropout_eq o.2.1 o.2.2 x
  rw [hx]
  constructor
  case rest =>
    rw [hentered, hxcount, h.rest]
  case counted =>
    intro hle
    rw [hentered, hxcount]
    dsimp only
    rw [h.counted hle, List.countP_append, List.countP_singleton]
    split <;> omega
  case idle =>
    intro hnone
    obtain ⟨hr, hd⟩ := h.idle hnone
    rw [receiverDropout_none _ _ (by rw [hring, hr]; exact hnone), hxcount]
    exact ⟨hr, hd⟩
  case ring =>
    intro r hr
    have hfill : fillingRecord x.ring = some (offerAll (l.map Prod.snd) r) := by
      rw [hring, h.ring r hr]
      exact fillingRecord_modRecord (offerAll_state _) hr
    rw [receiverDropout_ring _ _ hfill, offerAll_num, hring, h.ring r hr, modRecord_modRecord (offerAll_num _),
      List.map_append]
    refine congrArg (fun f => modRecord r.num f ch.ring) (funext fun y => ?_)
    rw [offerAll_append]
    rfl
  case damaged =>
    intro r hr hfound
    have hfill : fillingRecord x.ring = some (offerAll (l.map Prod.snd) r) := by
      rw [hring, h.ring r hr]
      exact fillingRecord_modRecord (offerAll_state _) hr
    have hfind : findRecord x.ring (offerAll (l.map Prod.snd) r).num = some (offerAll (l.map Prod.snd) r) := by
      rw [offerAll_num, hring, h.ring r hr]
      exact findRecord_modRecord (offerAll_num _) hfound
    have hcount := damaged_append o.2 (h.damaged r hr hfound)
    rw [receiverDropout_filling _ _ hfill hfind, List.map_append]
    simp only [offerToRecord_snd] at hcount
    refine Eq.trans ?_ hcount
    rw [hxcount]
    dsimp only
    split <;> rfl

theorem dropoutsEntered_foldl (l : List (Bool × Nat × Cause)) (ch : Channel) :
    DropoutsEntered l ch (l.foldl enterDropout ch) := by
  induction l using List.reverseRecOn with
  | nil => exact dropoutsEntered_nil ch
  | append_singleton l o ih =>
    rw [List.foldl_append]
    exact ih.append o

/-! ### The closing of a field (R14) -/

/-- The dropouts of a closing field: each waiting line as LOST, a TIMING line not counted again, and each line not received
as SHORT (R14 steps 2 and 3). -/
def closingDropouts (x : Receiver) : List (Bool × Nat × Cause) :=
  x.buffer.map (fun l => (!l.timing, l.line, .lost)) ++ (missingLines x).map (fun k => (true, k, .short))

theorem closingDropouts_offers (x : Receiver) : (closingDropouts x).map Prod.snd = ClosingOffers x := by
  unfold closingDropouts ClosingOffers missingLines
  rw [List.map_append, List.map_map, List.map_map]
  rfl

/-- The lines above the line in progress. -/
theorem length_missing (h v n : Nat) : ((List.range h).filter (fun k => decide (n < v + k))).length = h - (n + 1 - v) := by
  induction h with
  | zero => simp
  | succ h ih =>
    rw [List.range_succ, List.filter_append, List.length_append, ih, List.filter_singleton]
    by_cases hlt : n < v + h
    · simp only [hlt, decide_true, cond_true, List.length_singleton]; omega
    · simp only [hlt, decide_false, cond_false, List.length_nil]; omega

theorem closingDropouts_count (x : Receiver) : (closingDropouts x).countP Prod.fst =
    x.buffer.countP (fun l => !l.timing) + (activeLines x.fieldStd - (x.lineNo + 1 - firstActive x.fieldStd)) := by
  unfold closingDropouts missingLines
  rw [List.countP_append, List.countP_map, List.countP_map, ← length_missing]
  congr 1
  exact List.countP_eq_length.2 fun _ _ => rfl

/-- The waiting lines discarded and the missing ones entered (R14 steps 2 and 3). -/
theorem closing_eq_foldl (ch : Channel) : (missingLines ch.recv).foldl shortLine (discardBuffer ch) =
    (closingDropouts ch.recv).foldl enterDropout { ch with recv := { ch.recv with buffer := [] } } := by
  have hwait : discardWaiting = fun (x : Channel) (l : BufLine) => enterDropout x (!l.timing, l.line, .lost) :=
    funext fun x => funext fun l => by
      unfold discardWaiting enterDropout
      cases l.timing <;> rfl
  unfold closingDropouts discardBuffer
  rw [List.foldl_append, List.foldl_map, List.foldl_map, hwait]
  rfl

/-- The field end's change of its record: COMPLETE, with the parity and the vote that close with it (R16, R36). -/
def endedRecord (closed : Bool) (voted : Parity × VoteResult) (x : FieldRecord) : FieldRecord :=
  { x with
    state := .complete
    parity := if closed = true then x.parity else some voted.1
    vote := if closed = true then x.vote else some voted.2 }

/-- Changes of the FILLING record in a row, the first of which keeps it FILLING. -/
theorem modFilling_modFilling {f g : FieldRecord → FieldRecord} (hf : ∀ x, (f x).state = x.state)
    (ring : List FieldRecord) : modFilling g (modFilling f ring) = modFilling (fun x => g (f x)) ring := by
  unfold modFilling
  rw [List.map_map]
  refine List.map_congr_left fun x _ => ?_
  by_cases hx : x.state = .filling <;> simp [hx, hf]

/-- With no FILLING record none changes. -/
theorem modFilling_none {ring : List FieldRecord} (h : fillingRecord ring = none) (f : FieldRecord → FieldRecord) :
    modFilling f ring = ring := by
  refine (List.map_congr_left fun x hx => if_neg ?_).trans (List.map_id _)
  simpa using List.find?_eq_none.1 h x hx

/-- Of an accepted field an open vote closes, and the record becomes COMPLETE (R16, R36 steps 1 and 2). -/
theorem completeRecord_closeOpenVote {ch : Channel} (ha : ch.recv.accepted = true) {voted : Parity × VoteResult}
    (hv : voted = decideParity ch.recv.vote ch.recv.prevParity) : completeRecord (closeOpenVote ch) = { ch with
      recv := { ch.recv with
        voteClosed := true
        prevParity := if ch.recv.voteClosed = true then ch.recv.prevParity else some voted.1 }
      ring := modFilling (endedRecord ch.recv.voteClosed voted) ch.ring
      stats := { ch.stats with parityDisputes :=
        if ch.recv.voteClosed = false ∧ voted.2 = .twoOfThree then min 65535 (ch.stats.parityDisputes + 1)
        else ch.stats.parityDisputes } } := by
  unfold closeOpenVote completeRecord
  cases hc : ch.recv.voteClosed with
  | true =>
    obtain ⟨⟨⟩⟩ := ch
    dsimp only at hc
    subst hc
    rfl
  | false =>
    rw [if_neg Bool.false_ne_true, closeVote_eq (p := voted.1) (v := voted.2) (by rw [← hv])]
    have hring : modFilling (fun r => { r with state := .complete }) (ch.ring.map (fun r => if r.state = .filling then
        { r with parity := some voted.1, vote := some voted.2 } else r)) = modFilling (endedRecord false voted) ch.ring :=
      modFilling_modFilling (f := fun r => { r with parity := some voted.1, vote := some voted.2 }) (fun _ => rfl) ch.ring
    simp only [ha, if_true, true_and, Bool.false_eq_true, if_false]
    rw [hring]
    split <;> rfl

/-- The closing of a field as `FieldClosed` says it: the line judged, the field end only where the field was accepted. -/
theorem closeField_eq (c : Chan) (line : LineIn) (s a : State) (ha : a = arbitrate (s.modCh c (endLine line))) :
    closeField c line s = if (a.ch c).recv.accepted = true then
      cadenceFieldEnd c (a.setCh c (completeRecord (closeOpenVote
        ((closingDropouts (a.ch c).recv).foldl enterDropout
          { a.ch c with recv := { (a.ch c).recv with buffer := [] } })))) else a := by
  unfold closeField fieldEnd
  rw [← ha]
  dsimp only
  split
  · rw [State.modCh_eq, State.modCh_eq, State.ch_setCh_same, State.setCh_setCh, closing_eq_foldl]
  · rfl

/-- A waiting line of a closing field is listed, as LOST where its entries were TIMING at most (R14 step 2, R19). -/
theorem closing_lists_waiting (x : Receiver) (r : FieldRecord) {l : BufLine} (hl : l ∈ x.buffer) :
    (offerAll (ClosingOffers x) r).damaged = true ∨ ∃ d ∈ (offerAll (ClosingOffers x) r).dropouts, d.line = l.line ∧
      ((∀ y ∈ r.dropouts, y.line = l.line → y.cause = .timing) → d.cause = .lost) := by
  have hoffered := dropoutsOffered_offerAll (ClosingOffers x) r
  have hmem : (l.line, Cause.lost) ∈ ClosingOffers x := List.mem_append_left _ (List.mem_map.2 ⟨l, hl, rfl⟩)
  by_cases htiming : ∀ y ∈ r.dropouts, y.line = l.line → y.cause = .timing
  · have hlost : ListsLost l.line (offerAll (ClosingOffers x) r) := by
      unfold ClosingOffers
      have hsplit : x.buffer.map (fun l => (l.line, Cause.lost)) =
        (x.buffer.map BufLine.line).map (fun j => (j, Cause.lost)) := by rw [List.map_map]; rfl
      rw [hsplit]
      exact listsLost_offerAll (fun d hd hk => .inl (htiming d hd hk)) (List.mem_map_of_mem hl) _
    exact hlost.imp_right fun ⟨d, hd, hk, hc⟩ => ⟨d, hd, hk, fun _ => hc⟩
  · exact (listed_of_offered hoffered hmem).imp_right fun ⟨d, hd, hk⟩ => ⟨d, hd, hk, fun h => absurd h htiming⟩

/-- A line not received of a closing field is listed, as SHORT where nothing else was offered for it (R14 step 3). -/
theorem closing_lists_missing (x : Receiver) (r : FieldRecord) {k : Nat} (hk : k < activeLines x.fieldStd)
    (hmissing : x.lineNo < firstActive x.fieldStd + k) :
    (offerAll (ClosingOffers x) r).damaged = true ∨ ∃ d ∈ (offerAll (ClosingOffers x) r).dropouts, d.line = k ∧
      ((∀ y ∈ r.dropouts, y.line ≠ k) → (∀ l ∈ x.buffer, l.line ≠ k) → d.cause = .short) := by
  have hoffered := dropoutsOffered_offerAll (ClosingOffers x) r
  have hmem : (k, Cause.short) ∈ ClosingOffers x :=
    List.mem_append_right _ (List.mem_map.2 ⟨k, List.mem_filter.2 ⟨List.mem_range.2 hk, by simpa using hmissing⟩, rfl⟩)
  refine (listed_of_offered hoffered hmem).imp_right fun ⟨d, hd, hline⟩ => ⟨d, hd, hline, fun hr hb => ?_⟩
  obtain ⟨-, -, hnew, -⟩ := hoffered
  rcases hnew d hd with hold | hoffer
  · exact absurd hline (hr d hold)
  · rcases List.mem_append.1 hoffer with hwait | hshort
    · obtain ⟨l, hl, heq⟩ := List.mem_map.1 hwait
      obtain ⟨hll, -⟩ := Prod.mk.inj heq
      exact absurd (hll.trans hline) (hb l hl)
    · obtain ⟨j, -, heq⟩ := List.mem_map.1 hshort
      exact (Prod.mk.inj heq).2.symm

/-- The record in progress is the only one that the closing changes, where no number stands twice in the ring (R14, R36). -/
theorem modFilling_modRecord {ring : List FieldRecord} {r : FieldRecord} {f g : FieldRecord → FieldRecord}
    (hf : ∀ x, (f x).state = x.state) (hr : r ∈ ring) (hfilling : r.state = .filling)
    (hnodup : (ring.map FieldRecord.num).Nodup) :
    modFilling g (modRecord r.num f ring) =
      ring.map (fun x => if x.state = .filling then g (if x.num = r.num then f r else x) else x) := by
  unfold modFilling modRecord
  rw [List.map_map]
  refine List.map_congr_left fun x hx => ?_
  by_cases hnum : x.num = r.num
  · obtain rfl := List.inj_on_of_nodup_map hnodup hx hr hnum
    simp [hf, hfilling]
  · simp [hnum]

/-- R14, R36: the closing of a field. -/
theorem fieldClosed_closeField (c : Chan) (line : LineIn) {s a : State}
    (ha : a = arbitrate (s.modCh c (endLine line))) : FieldClosed c a (closeField c line s) := by
  rw [closeField_eq c line s a ha]
  refine ⟨fun hacc => by rw [hacc, if_neg Bool.false_ne_true], fun hacc => ?_⟩
  rw [if_pos hacc]
  generalize a.ch c = e at hacc ⊢
  obtain ⟨x, hx⟩ : ∃ x, x = { e with recv := { e.recv with buffer := [] } } := ⟨_, rfl⟩
  obtain ⟨y, hy⟩ : ∃ y, y = (closingDropouts e.recv).foldl enterDropout x := ⟨_, rfl⟩
  have hentered : DropoutsEntered (closingDropouts e.recv) x y := hy ▸ dropoutsEntered_foldl _ x
  have hring : x.ring = e.ring := by rw [hx]
  have hstats : x.stats = e.stats := by rw [hx]
  have hrecv : y.recv = { e.recv with buffer := [] } := by rw [hentered.rest, hx]
  have hclosed := completeRecord_closeOpenVote (ch := y) (by rw [hrecv]; exact hacc) rfl
  rw [hrecv] at hclosed
  rw [← hx, ← hy, hclosed]
  dsimp only
  generalize hvoted : decideParity e.recv.vote e.recv.prevParity = voted
  refine ⟨e, activeLines e.recv.fieldStd, voted, modFilling (endedRecord e.recv.voteClosed voted) y.ring,
    { y.stats with parityDisputes :=
        if e.recv.voteClosed = false ∧ voted.2 = .twoOfThree then min 65535 (y.stats.parityDisputes + 1)
        else y.stats.parityDisputes },
    endedRecord e.recv.voteClosed voted, rfl, rfl, hvoted.symm, ?_, ?_, fun hle => ?_, rfl, fun hnone => ?_, fun r hr => ?_⟩
  · refine congrArg (fun ch => cadenceFieldEnd c (a.setCh c ch)) ?_
    rw [hentered.rest, hx]
  · rw [hentered.rest, hx]
  · rw [← hstats] at hle
    rw [Nat.add_assoc, ← closingDropouts_count, ← hstats]
    exact hentered.counted hle
  · rw [← hring] at hnone
    obtain ⟨hidle, hcount⟩ := hentered.idle hnone
    rw [hidle, modFilling_none hnone, hring, ← hstats]
    exact ⟨rfl, hcount⟩
  · rw [← hring] at hr
    have hy := hentered.ring r hr
    have hdamaged := hentered.damaged r hr
    rw [closingDropouts_offers, hring] at hy hdamaged
    refine ⟨offerAll (ClosingOffers e.recv) r, rfl, dropoutsOffered_offerAll _ r,
      fun l hl => closing_lists_waiting e.recv r hl, fun k hk hm => closing_lists_missing e.recv r hk hm,
      fun hnodup => ?_, fun hfound => ?_⟩
    · rw [hy]
      exact modFilling_modRecord (offerAll_state _) (hring ▸ List.mem_of_find?_eq_some hr)
        (by simpa using List.find?_some hr) hnodup
    · rw [← hstats]
      exact hdamaged hfound

end Sys2Proof.Machine
end

section
/-! SUPPORT. What a line start reaches beside its own channel's receiver: the other channels by a grant alone (R51), its own
channel's output not at all. -/

namespace Sys2Proof.Machine

open Sys2Proof

/-! ### A grant (R51) -/

/-- All that a grant can move of a channel: the line buffer's oldest lines, and with them ring and images, and the engine's
read. -/
structure GrantMoves (old new : Channel) : Prop where
  eq     : new = { old with
             recv := { old.recv with buffer := new.recv.buffer }
             ring := new.ring, cad := new.cad, engine := new.engine }
  buffer : new.recv.buffer.length ≤ old.recv.buffer.length

theorem GrantMoves.refl (ch : Channel) : GrantMoves ch ch := ⟨rfl, le_rfl⟩

theorem GrantMoves.trans {x y z : Channel} (h : GrantMoves x y) (k : GrantMoves y z) : GrantMoves x z := by
  refine ⟨?_, k.buffer.trans h.buffer⟩
  rw [k.eq, h.eq]

theorem grantMoves_grantWriteTo (ch : Channel) : GrantMoves ch (grantWriteTo ch) := by
  unfold grantWriteTo
  split
  · next l rest r hb _ => exact ⟨rfl, by simp [hb]⟩
  · exact .refl ch

theorem grantMoves_modCh {f : Channel → Channel} (hf : ∀ ch, GrantMoves ch (f ch)) (s : State) (c e : Chan) :
    GrantMoves (s.ch e) ((s.modCh c f).ch e) := by
  by_cases h : e = c
  · subst h; rw [State.ch_modCh_same]; exact hf _
  · rw [State.ch_modCh_ne _ h]; exact .refl _

theorem grantMoves_arbitrate (s : State) (e : Chan) : GrantMoves (s.ch e) ((arbitrate s).ch e) := by
  rcases arbitrate_cases s with h | ⟨d, slot, l, -, -, h⟩ | ⟨d, src, role, k, -, -, -, h⟩ <;> rw [h]
  · exact .refl _
  · exact grantMoves_modCh grantMoves_grantWriteTo s d e
  · exact grantMoves_modCh (f := grantReadTo) (fun _ => ⟨rfl, le_rfl⟩) s d e

/-! ### A channel's own operations -/

/-- The event's effect on its channel's reports depends on these, on the halt record and on the load alone (R161, R166). -/
theorem raise_rep_congr {c : Chan} {s t : State} (hrep : (t.ch c).rep = (s.ch c).rep)
    (hhalt : (t.ch c).ctl.halt = (s.ch c).ctl.halt) (hload : t.loader = s.loader) (k : EventKind) (n : Nat) :
    ((raise c k n t).ch c).rep = ((raise c k n s).ch c).rep := by
  have hroom : t.eventRoom c 0 = s.eventRoom c 0 := by
    unfold State.eventRoom State.freePlaces State.reserved
    rw [hrep, hhalt, hload]
  unfold raise
  rw [hrep, hroom]
  split <;> simp [pushReport, hrep]

/-- What a field end leaves in the channel (R64, R79): ring, cadence context and its two counters change. -/
theorem trackFieldEnd_ch (tables : Tables) (r : FieldRecord) (r1 r2 : Option FieldRecord) (ch : Channel) :
    ∃ ring cad locks losses, (trackFieldEnd tables r r1 r2 ch).1 = { ch with
      ring := ring, cad := cad, stats := { ch.stats with cadenceLocks := locks, cadenceLosses := losses } } := by
  obtain ⟨locks, losses, h⟩ : ∃ locks losses, countTrackEvent (trackFieldEnd tables r r1 r2 ch).2 ch.stats =
      { ch.stats with cadenceLocks := locks, cadenceLosses := losses } := by
    unfold countTrackEvent
    split <;> exact ⟨_, _, rfl⟩
  exact ⟨_, _, locks, losses, by rw [← h]; rfl⟩

theorem raiseTrackEvent_eq_setCh (c : Chan) (e : Option EventKind) (n : Nat) (s : State) :
    ∃ rep, raiseTrackEvent c e n s = s.setCh c { s.ch c with rep := rep } := by
  unfold raiseTrackEvent
  split
  · exact ⟨_, raise_eq_setCh c s _ _⟩
  · exact ⟨_, (State.setCh_ch c s).symm⟩

/-- What the field end of the tracker changes (R36 step 3, R64, R79). -/
theorem cadenceFieldEnd_eq_setCh (c : Chan) (s : State) : ∃ ring cad rep locks losses, cadenceFieldEnd c s =
    s.setCh c { s.ch c with
      ring := ring, cad := cad, rep := rep
      stats := { (s.ch c).stats with cadenceLocks := locks, cadenceLosses := losses } } := by
  unfold cadenceFieldEnd
  split
  · exact ⟨_, _, _, _, _, (State.setCh_ch c s).symm⟩
  · next r older _ =>
    obtain ⟨ring, cad, locks, losses, hch⟩ := trackFieldEnd_ch s.tables r older[0]? older[1]? (s.ch c)
    dsimp only
    generalize (trackFieldEnd s.tables r older[0]? older[1]? (s.ch c)).2 = event
    obtain ⟨rep, hrep⟩ := raiseTrackEvent_eq_setCh c event r.num
      (s.setCh c (trackFieldEnd s.tables r older[0]? older[1]? (s.ch c)).1)
    rw [hrep, State.ch_setCh_same, State.setCh_setCh, hch]
    exact ⟨ring, cad, rep, locks, losses, rfl⟩

/-- With no frame there is none to abandon. -/
theorem abandonFrame_none {c : Chan} {s : State} (h : (s.ch c).engine = none) : abandonFrame c s = s := by
  unfold abandonFrame
  rw [h]

/-- All that abandoning a frame does (R52, R89, R99). -/
theorem abandonFrame_some {c : Chan} {s : State} {f : Frame} (h : (s.ch c).engine = some f) :
    abandonFrame c s = { s.setCh c { s.ch c with
        engine := none
        stats := PublishedBy f (s.ch c).stats
        scaler := (s.ch c).scaler.map (fun x => { x with abandoned := true }) } with
      arbiter := { s.arbiter with burst := ReadOrphaned c false true s.arbiter.burst } } := by
  have hleft : ∀ (x : Channel) (b : Option Burst) (g : Channel → Channel),
      ({ s.setCh c x with arbiter := { s.arbiter with burst := b } } : State).modCh c g =
        { s.setCh c (g x) with arbiter := { s.arbiter with burst := b } } := fun x b g => by
    cases c <;> rfl
  unfold abandonFrame
  rw [h]
  dsimp only
  rw [leaveFrame_some h, hleft]
  rfl

/-- The channel's output stands: its Scaler frame context and what its last line period emitted. -/
def OutputStands (old new : Channel) : Prop := new.scaler = old.scaler ∧ new.out = old.out

theorem OutputStands.trans {x y z : Channel} (h : OutputStands x y) (k : OutputStands y z) : OutputStands x z :=
  ⟨k.1.trans h.1, k.2.trans h.2⟩

theorem outputStands_receiverDropout (k : Nat) (cause : Cause) (ch : Channel) :
    OutputStands ch (receiverDropout k cause ch) := by
  rw [receiverDropout_eq]
  exact ⟨rfl, rfl⟩

theorem outputStands_judgedDropouts (k : Nat) (good room : Bool) (ch : Channel) :
    OutputStands ch (judgedDropouts k good room ch) := by
  have hdrop : ∀ cause, OutputStands ch (receiverDropout k cause (countDropout ch)) := fun cause =>
    outputStands_receiverDropout k cause (countDropout ch)
  unfold judgedDropouts
  cases good <;> cases room
  · exact (hdrop .timing).trans (outputStands_receiverDropout k .lost _)
  · exact hdrop .timing
  · exact hdrop .lost
  · exact ⟨rfl, rfl⟩

theorem outputStands_receiveLine (line : LineIn) (ch : Channel) : OutputStands ch (receiveLine line ch) := by
  unfold receiveLine
  generalize assembleLine ch.recv.fieldStd line = words
  exact ⟨rfl, rfl⟩

theorem outputStands_endLine (line : LineIn) (ch : Channel) : OutputStands ch (endLine line ch) := by
  unfold endLine
  split
  · unfold handOn
    split
    · exact ⟨rfl, rfl⟩
    · split <;> exact ⟨rfl, rfl⟩
  · split
    · have hreceived := outputStands_receiveLine line ch
      generalize receiveLine line ch = x at hreceived ⊢
      split
      · rw [judgeLine_eq]
        exact hreceived.trans (outputStands_judgedDropouts _ _ _ x)
      · exact hreceived
    · exact ⟨rfl, rfl⟩

theorem outputStands_closeVote (ch : Channel) : OutputStands ch (closeVote ch) := by
  unfold closeVote
  dsimp only
  split <;> exact ⟨rfl, rfl⟩

theorem outputStands_nextLine (w : TimingWord) (ch : Channel) : OutputStands ch (nextLine w ch) := by
  unfold nextLine voteAtLine
  split
  · exact ⟨rfl, rfl⟩
  · split
    · exact outputStands_closeVote _
    · split
      · split
        · exact outputStands_closeVote (joinVote w.parity _)
        · exact ⟨rfl, rfl⟩
      · exact ⟨rfl, rfl⟩

/-! ### A line start and the other channels (R11) -/

/-- From `s` to `t` channel `c` may change, its output frame going on; the others move by a grant at most, and with a burst in
flight not at all. -/
structure ReachesChannel (c : Chan) (s t : State) : Prop where
  probe  : t.probe = s.probe
  scaler : (t.ch c).scaler.isSome = (s.ch c).scaler.isSome
  out    : (t.ch c).out = (s.ch c).out
  others : ∀ e, e ≠ c → GrantMoves (s.ch e) (t.ch e)
  busy   : s.arbiter.burst ≠ none → t.arbiter.burst ≠ none ∧ ∀ e, e ≠ c → t.ch e = s.ch e

section

variable {c : Chan} {s t u : State}

theorem ReachesChannel.trans (h : ReachesChannel c s t) (k : ReachesChannel c t u) : ReachesChannel c s u where
  probe := k.probe.trans h.probe
  scaler := k.scaler.trans h.scaler
  out := k.out.trans h.out
  others e he := (h.others e he).trans (k.others e he)
  busy hs :=
    have ⟨ht, hst⟩ := h.busy hs
    have ⟨hu, htu⟩ := k.busy ht
    ⟨hu, fun e he => (htu e he).trans (hst e he)⟩

/-- A change of the channel and of what the burst in flight knows. -/
theorem reachesChannel_own {x : Channel} {b : Option Burst} (hb : s.arbiter.burst ≠ none → b ≠ none)
    (hscaler : x.scaler.isSome = (s.ch c).scaler.isSome) (hout : x.out = (s.ch c).out) :
    ReachesChannel c s { s.setCh c x with arbiter := { s.arbiter with burst := b } } where
  probe := rfl
  scaler := (congrArg (fun y : Channel => y.scaler.isSome) (State.ch_setCh_same s c x)).trans hscaler
  out := (congrArg Channel.out (State.ch_setCh_same s c x)).trans hout
  others _ he := (State.ch_setCh_ne s he x).symm ▸ .refl _
  busy hs := ⟨hb hs, fun _ he => State.ch_setCh_ne s he x⟩

theorem reachesChannel_setCh {x : Channel} (hscaler : x.scaler.isSome = (s.ch c).scaler.isSome)
    (hout : x.out = (s.ch c).out) : ReachesChannel c s (s.setCh c x) :=
  reachesChannel_own (b := s.arbiter.burst) id hscaler hout

theorem OutputStands.reaches {f : Channel → Channel} (h : OutputStands (s.ch c) (f (s.ch c))) :
    ReachesChannel c s (s.modCh c f) :=
  reachesChannel_setCh (congrArg Option.isSome h.1) h.2

theorem reachesChannel_refl (c : Chan) (s : State) : ReachesChannel c s s :=
  ⟨rfl, rfl, rfl, fun _ _ => .refl _, fun h => ⟨h, fun _ _ => rfl⟩⟩

theorem reachesChannel_raise (k : EventKind) (n : Nat) : ReachesChannel c s (raise c k n s) := by
  rw [raise_eq_setCh]
  exact reachesChannel_setCh rfl rfl

theorem reachesChannel_arbitrate : ReachesChannel c s (arbitrate s) := by
  have hprobe : (arbitrate s).probe = s.probe := by
    rcases arbitrate_cases s with h | ⟨d, slot, l, -, -, h⟩ | ⟨d, src, role, k, -, -, -, h⟩ <;> rw [h] <;> rfl
  have hown := grantMoves_arbitrate s c
  refine ⟨hprobe, by rw [hown.eq], by rw [hown.eq], fun e _ => grantMoves_arbitrate s e, fun hs => ?_⟩
  obtain ⟨b, hb⟩ := Option.ne_none_iff_exists'.1 hs
  rw [arbitrate_busy s hb]
  exact ⟨hs, fun _ _ => rfl⟩

theorem noteRemoval_ne_none {ring : List FieldRecord} {b : Option Burst} (h : b ≠ none) : noteRemoval c ring b ≠ none := by
  unfold noteRemoval
  split
  · split
    · exact Option.some_ne_none _
    · exact h
  · exact h

theorem reachesChannel_removeFromRing (ring : List FieldRecord) : ReachesChannel c s (removeFromRing c ring s) :=
  reachesChannel_own noteRemoval_ne_none rfl rfl

theorem readOrphaned_ne_none {frame record : Bool} {b : Option Burst} (h : b ≠ none) :
    ReadOrphaned c frame record b ≠ none := by
  unfold ReadOrphaned
  split
  · split
    · exact Option.some_ne_none _
    · exact h
  · exact h

theorem reachesChannel_abandonFrame : ReachesChannel c s (abandonFrame c s) := by
  cases h : (s.ch c).engine with
  | none => rw [abandonFrame_none h]; exact reachesChannel_refl c s
  | some f => rw [abandonFrame_some h]; exact reachesChannel_own readOrphaned_ne_none Option.isSome_map rfl

theorem reachesChannel_reclaim : ReachesChannel c s (reclaim c s) := by
  unfold reclaim
  split
  · split
    · exact reachesChannel_refl c s
    · dsimp only
      split
      · exact (reachesChannel_removeFromRing _).trans
          (.trans (OutputStands.reaches ⟨rfl, rfl⟩) (reachesChannel_raise _ _))
      · exact reachesChannel_removeFromRing _
  · exact reachesChannel_refl c s

theorem reachesChannel_acceptField (flywheel : Option Parity) : ReachesChannel c s (acceptField c flywheel s) := by
  unfold acceptField
  split
  · have hcount : ∀ t : State, ReachesChannel c t
        (t.modCh c fun ch => fieldValuesInForce (countAccepted flywheel.isSome ch)) := fun t =>
      OutputStands.reaches ⟨rfl, rfl⟩
    have happend : ∀ (n offset : Nat) (t : State), ReachesChannel c t
        ((reclaim c t).modCh c fun ch => openImage n (appendRecord n offset flywheel ch)) := fun n offset t =>
      reachesChannel_reclaim.trans (OutputStands.reaches ⟨rfl, rfl⟩)
    dsimp only
    split
    · exact ((((hcount s).trans reachesChannel_abandonFrame).trans (reachesChannel_removeFromRing [])).trans
        (OutputStands.reaches ⟨rfl, rfl⟩)).trans (happend _ _ _)
    · exact (hcount s).trans (happend _ _ _)
  · exact reachesChannel_refl c s

theorem reachesChannel_cadenceFieldEnd (s : State) : ReachesChannel c s (cadenceFieldEnd c s) := by
  obtain ⟨ring, cad, rep, locks, losses, h⟩ := cadenceFieldEnd_eq_setCh c s
  rw [h]
  exact reachesChannel_setCh rfl rfl

theorem reachesChannel_closeField (line : LineIn) : ReachesChannel c s (closeField c line s) := by
  have hline : ReachesChannel c s (arbitrate (s.modCh c (endLine line))) :=
    (OutputStands.reaches (outputStands_endLine line _)).trans reachesChannel_arbitrate
  obtain ⟨hidle, haccepted⟩ := fieldClosed_closeField c line (s := s) rfl
  cases hacc : ((arbitrate (s.modCh c (endLine line))).ch c).recv.accepted with
  | false => rw [hidle hacc]; exact hline
  | true =>
    obtain ⟨e, h, voted, ring, stats, ended, rfl, -, -, hu, -⟩ := haccepted hacc
    rw [hu]
    exact (hline.trans (by exact reachesChannel_setCh rfl rfl)).trans (reachesChannel_cadenceFieldEnd _)

theorem reachesChannel_lineStart (w : TimingWord) (line : LineIn) : ReachesChannel c s (lineStart c w line s) := by
  have hbegin : ∀ (b : Bool) (n : Nat) (t : State), ReachesChannel c t (t.modCh c (beginField w b n)) := fun _ _ _ =>
    OutputStands.reaches ⟨rfl, rfl⟩
  unfold lineStart
  split
  · split
    · exact (hbegin _ _ _).trans (reachesChannel_acceptField none)
    · exact reachesChannel_refl c s
  · split
    · exact ((hbegin _ _ _).trans (reachesChannel_raise _ _)).trans (reachesChannel_acceptField none)
    · exact reachesChannel_refl c s
  · split
    · exact ((reachesChannel_closeField line).trans (hbegin _ _ _)).trans (reachesChannel_acceptField none)
    · split
      · exact ((reachesChannel_closeField line).trans (hbegin _ _ _)).trans (reachesChannel_acceptField _)
      · exact ((OutputStands.reaches (outputStands_endLine line _)).trans reachesChannel_arbitrate).trans
          (OutputStands.reaches (outputStands_nextLine w _))

end

/-- A word that is no valid field start does nothing in SEEKING and LOSS (R11, R12, R27). -/
theorem lineStart_idle {c : Chan} {w : TimingWord} {line : LineIn} {s : State} (hs : (s.ch c).recv.state ≠ .inField)
    (hw : (w.valid && w.fieldStart) = false) : lineStart c w line s = s := by
  unfold lineStart
  split
  · rw [hw, if_neg Bool.false_ne_true]
  · rw [hw, if_neg Bool.false_ne_true]
  · next h => exact absurd h hs

/-- Settles O31: the frame of a line start, and its idling outside IN_FIELD. -/
theorem timingWordReachesItsChannel : Obligations.TimingWordReachesItsChannel := by
  intro c dt w line s
  obtain ⟨s', hs'⟩ : ∃ s' : State, s' = ({ s with now := s.now + dt } : State).modCh c (clearLossCount w) := ⟨_, rfl⟩
  have hmine : s'.ch c = clearLossCount w (s.ch c) := by rw [hs']; exact State.ch_modCh_same _ _ _
  have hother : ∀ e, e ≠ c → s'.ch e = s.ch e := fun e he => by rw [hs']; exact State.ch_modCh_ne _ he _
  have hexec : exec (.timingWord c dt w line) s = .next (lineStart c w line s') := by rw [hs']; rfl
  have hdev := keepsDevice_lineStart c w line s'
  have hreach : ReachesChannel c s' (lineStart c w line s') := reachesChannel_lineStart w line
  rw [clearLossCount_eq] at hmine
  refine ⟨lineStart c w line s', hexec, ?_⟩
  have hbusy := hreach.busy
  have hscaler := hreach.scaler
  have hout := hreach.out
  rw [hmine] at hscaler hout
  rw [hdev.now, hdev.dram, hdev.dramErrs, hdev.capture, hdev.inhibitSingle, hdev.tables, hdev.loader, hdev.shadow, hdev.rtu,
    hdev.startSeen, hreach.probe, hdev.resetCause, hdev.deviceAddress, hdev.startNo, hdev.pending, hscaler, hout]
  subst hs'
  refine ⟨rfl, rfl, rfl, rfl, rfl, rfl, rfl, rfl, rfl, rfl, rfl, rfl, rfl, rfl, rfl, rfl, rfl, fun hb e he => ?_,
    fun e he => ?_, fun hseek hw => ?_⟩
  · exact ((hbusy hb).2 e he).trans (hother e he)
  · have hgrant := hreach.others e he
    rw [hgrant.eq, hother e he]
    exact ⟨rfl, rfl, rfl, rfl, rfl, rfl, rfl⟩
  · rw [lineStart_idle (by rw [hmine]; exact hseek) hw, State.modCh_eq]
    rw [show ({ s with now := s.now + dt } : State).ch c = s.ch c from rfl, clearLossCount_eq]
    rfl

end Sys2Proof.Machine
end

section
/-! SUPPORT. Input loss, declared at the output frame start now arriving (R26, R43, R82, R133). -/

namespace Sys2Proof.Machine

open Sys2Proof

/-- The ring after input loss, by R43's table: COMPLETE records stay, on entry to LOST the pinned ones alone. -/
theorem ringAfterLoss_eq (x : ChanState) (ring : List FieldRecord) : ringAfterLoss x ring =
    ring.filter (fun r => decide (r.state = .complete) && (r.pinned || !(decide (x = .starting) || decide (x = .running)))) := by
  cases x <;> refine List.filter_congr fun r _ => ?_ <;> cases r.pinned <;> simp

theorem stateAfterLoss_eq (x : ChanState) :
    stateAfterLoss x = match x with | .starting => .lost | .running => .lost | x => x := by
  cases x <;> rfl

/-- All that the declaration of an input loss does to its channel (R26, R43, R82, R133). -/
theorem declareLoss_ch_same (c : Chan) (s : State) : (declareLoss c s).ch c = { s.ch c with
    recv := receiverLoss (s.ch c).recv
    ring := ringAfterLoss (s.ch c).ctl.state (s.ch c).ring
    cad := Cadence.clear
    ctl := { (s.ch c).ctl with state := stateAfterLoss (s.ch c).ctl.state }
    rep := ((raise c .inputLost (s.ch c).fieldCount s).ch c).rep } := by
  unfold declareLoss
  dsimp only
  generalize ringAfterLoss (s.ch c).ctl.state (s.ch c).ring = ring
  obtain ⟨t, ht⟩ : ∃ t, t = (removeFromRing c ring s).modCh c (fun x => clearCadence { x with
      recv := receiverLoss x.recv, ctl := { x.ctl with state := stateAfterLoss x.ctl.state } }) := ⟨_, rfl⟩
  have hch : t.ch c = { s.ch c with
      recv := receiverLoss (s.ch c).recv, ring := ring, cad := Cadence.clear
      ctl := { (s.ch c).ctl with state := stateAfterLoss (s.ch c).ctl.state } } := by
    rw [ht, State.ch_modCh_same, removeFromRing_ch, State.ch_modCh_same]
    rfl
  have hload : t.loader = s.loader := by rw [ht]; rfl
  rw [← ht, raise_ch_same, raise_rep_congr (by rw [hch]) (by rw [hch]) hload, hch]

theorem declareLoss_ch_ne {c e : Chan} (h : e ≠ c) (s : State) : (declareLoss c s).ch e = s.ch e := by
  unfold declareLoss
  dsimp only
  rw [raise_ch_ne _ _ h, State.ch_modCh_ne _ h, removeFromRing_ch_ne _ _ h]

theorem declareLoss_probe (c : Chan) (s : State) : (declareLoss c s).probe = s.probe := by
  unfold declareLoss
  rw [raise_eq_setCh]
  rfl

/-- Settles O36: the declared loss, and the idling where the count does not come to 2. -/
theorem inputLossDeclared : Obligations.InputLossDeclared := by
  intro c s
  constructor
  · intro hcount hstate hdone
    have hexec : exec (.inputLoss c) s = .next ((declareLoss c s).modCh c (fun ch => { ch with lossDone := true })) := by
      show execInputLoss c s = _
      unfold execInputLoss lossWork lossAdvance
      rw [if_pos ⟨hdone, hstate, hcount⟩, hdone, if_neg Bool.false_ne_true]
      dsimp only
      rw [if_neg hstate, hcount, if_pos (by decide)]
    have hdev := keepsDevice_declareLoss c s
    refine ⟨_, hexec, ?_, fun e he => ?_, hdev.dram, hdev.dramErrs, hdev.tables, hdev.loader, hdev.rtu, hdev.capture,
      declareLoss_probe c s, hdev.now, hdev.pending⟩
    · rw [State.ch_modCh_same, declareLoss_ch_same, ringAfterLoss_eq, stateAfterLoss_eq]
      rfl
    · rw [State.ch_modCh_ne _ he, declareLoss_ch_ne he]
  · intro h
    show execInputLoss c s = _
    unfold execInputLoss
    rw [if_neg]
    rintro ⟨hdone, hstate, hcount⟩
    rcases h with h | h | h
    · exact h hcount
    · exact hstate h
    · rw [hdone] at h
      cases h

end Sys2Proof.Machine
end

section
/-! SUPPORT. Field starts: the field begun (R12, R13), its acceptance from each channel state (R15, R34, R45, R135), and the
end of a loss (R27). -/

namespace Sys2Proof.Machine

open Sys2Proof

/-! ### Changes of one channel in a row -/

theorem State.modCh_modCh (s : State) (c : Chan) (f g : Channel → Channel) :
    (s.modCh c f).modCh c g = s.modCh c (fun ch => g (f ch)) := by
  rw [State.modCh_eq, State.ch_modCh_same, State.modCh_eq, State.setCh_setCh]
  rfl

theorem State.modCh_setCh (s : State) (c : Chan) (x : Channel) (f : Channel → Channel) :
    (s.setCh c x).modCh c f = s.setCh c (f x) := by
  rw [State.modCh_eq, State.ch_setCh_same, State.setCh_setCh]

/-- A second record of the channel, the arbiter changed with the first. -/
theorem State.setCh_setCh_arbiter (s : State) (c : Chan) (x y : Channel) (a b : Arbiter) :
    ({ ({ s.setCh c x with arbiter := a } : State).setCh c y with arbiter := b } : State) =
      { s.setCh c y with arbiter := b } :=
  congrArg (fun t : State => { t with arbiter := b }) (State.setCh_setCh s c x y)

/-- A change of the channel behind a record of it and a change of the arbiter. -/
theorem State.modCh_setCh_arbiter (s : State) (c : Chan) (x : Channel) (a : Arbiter) (f : Channel → Channel) :
    ({ s.setCh c x with arbiter := a } : State).modCh c f = { s.setCh c (f x) with arbiter := a } :=
  congrArg (fun t : State => { t with arbiter := a }) (State.modCh_setCh s c x f)

/-! ### A LOST channel at the end of its loss (R45, R135) -/

/-- The channel in STARTING with an emptied ring, its HOLD frame abandoned (R45, R89, R99, R135). -/
def lostChannel (ch : Channel) : Channel :=
  { ch with
    ring := [], engine := none, cad := { ch.cad with images := [] }
    stats := match ch.engine with
      | none   => ch.stats
      | some f => PublishedBy f ch.stats
    scaler := if ch.engine = none then ch.scaler else ch.scaler.map (fun x => { x with abandoned := true })
    ctl := { ch.ctl with state := .starting, lastOutput := none } }

theorem noteRemoval_all (c : Chan) (b : Option Burst) : noteRemoval c [] b = ReadOrphaned c true false b := by
  rcases b with _ | ⟨_, _, _, _⟩ | ⟨e, _, _, _, _, _, _⟩
  · rfl
  · rfl
  · unfold noteRemoval ReadOrphaned
    by_cases h : e = c <;> simp [h, findRecord]

theorem readOrphaned_readOrphaned (c : Chan) (b : Option Burst) :
    ReadOrphaned c true false (ReadOrphaned c false true b) = ReadOrphaned c false false b := by
  rcases b with _ | ⟨_, _, _, _⟩ | ⟨e, _, _, _, _, _, _⟩
  · rfl
  · rfl
  · unfold ReadOrphaned
    by_cases h : e = c <;> simp [h]

theorem flushRing_eq (c : Chan) (s : State) : flushRing c s =
    { s.setCh c { s.ch c with ring := [], cad := { (s.ch c).cad with images := [] } } with
      arbiter := { s.arbiter with burst := ReadOrphaned c true false s.arbiter.burst } } := by
  have himages : (s.ch c).cad.images.filter (fun i => (findRecord [] i.num).isSome) = [] :=
    List.filter_eq_nil_iff.2 fun _ _ => Bool.false_ne_true
  unfold flushRing removeFromRing
  rw [noteRemoval_all, State.modCh_eq, himages]

/-- All that the end of the loss does to a LOST channel before its field is accepted (R45, R52, R89, R135). -/
theorem lostToStarting_eq (c : Chan) (s : State) : lostToStarting c s = { s.setCh c (lostChannel (s.ch c)) with
    arbiter := { s.arbiter with burst := ReadOrphaned c (decide ((s.ch c).engine = none)) false s.arbiter.burst } } := by
  have hflush : ∀ (x : Channel) (b : Option Burst),
      flushRing c { s.setCh c x with arbiter := { s.arbiter with burst := b } } =
        { s.setCh c { x with ring := [], cad := { x.cad with images := [] } } with
          arbiter := { s.arbiter with burst := ReadOrphaned c true false b } } := fun x b => by
    have hch : ({ s.setCh c x with arbiter := { s.arbiter with burst := b } } : State).ch c = x := State.ch_setCh_same s c x
    rw [flushRing_eq, hch]
    exact State.setCh_setCh_arbiter s c x _ _ _
  unfold lostToStarting lostChannel
  cases h : (s.ch c).engine with
  | none =>
    rw [abandonFrame_none h, flushRing_eq, State.modCh_setCh_arbiter]
    simp [h]
  | some f =>
    rw [abandonFrame_some h, hflush, State.modCh_setCh_arbiter, readOrphaned_readOrphaned]
    simp

theorem lostToStarting_setCh (c : Chan) (s : State) (x : Channel) : lostToStarting c (s.setCh c x) =
    { s.setCh c (lostChannel x) with
      arbiter := { s.arbiter with burst := ReadOrphaned c (decide (x.engine = none)) false s.arbiter.burst } } := by
  rw [lostToStarting_eq, State.ch_setCh_same]
  exact State.setCh_setCh_arbiter s c x _ s.arbiter _

/-! ### Acceptance (R15, R34) -/

/-- With fewer than 8 records nothing is reclaimed (R34 step 1). -/
theorem reclaim_room {c : Chan} {s : State} (h : (s.ch c).ring.length < 8) : reclaim c s = s := by
  unfold reclaim
  rw [if_neg (by omega)]

/-- A STOPPED channel accepts no field (R15). -/
theorem acceptField_stopped {c : Chan} {s : State} (flywheel : Option Parity) (h : (s.ch c).ctl.state = .stopped) :
    acceptField c flywheel s = s := by
  unfold acceptField
  rw [h]
  rfl

theorem writingState_iff (x : ChanState) : writingState x = true ↔ x ≠ .stopped := by cases x <;> decide

/-- The channel that has accepted the field `num`: counted, in force, and its record appended (R4, R13, R34, R61, R138). -/
def acceptedChannel (flywheel : Option Parity) (via : Channel → Channel) (ch : Channel) : Channel :=
  openImage ch.fieldCount (appendRecord ch.fieldCount (ch.recv.latestOffset.getD 0) flywheel
    (via (fieldValuesInForce (countAccepted flywheel.isSome ch))))

/-- A field start accepted with room in the ring (R15, R34). -/
theorem acceptField_room {c : Chan} {s : State} (flywheel : Option Parity) (hstopped : (s.ch c).ctl.state ≠ .stopped)
    (hlost : (s.ch c).ctl.state ≠ .lost) (hroom : (s.ch c).ring.length < 8) :
    acceptField c flywheel s = s.setCh c (acceptedChannel flywheel id (s.ch c)) := by
  unfold acceptField
  rw [if_pos ((writingState_iff _).2 hstopped)]
  dsimp only
  rw [if_neg hlost, reclaim_room (by rw [State.ch_modCh_same]; exact hroom), State.modCh_modCh]
  rfl

/-- A field start accepted by a LOST channel (R15, R45, R135). -/
theorem acceptField_lost {c : Chan} {s : State} (flywheel : Option Parity) (hlost : (s.ch c).ctl.state = .lost) :
    acceptField c flywheel s = { s.setCh c (acceptedChannel flywheel lostChannel (s.ch c)) with
      arbiter := { s.arbiter with burst := ReadOrphaned c (decide ((s.ch c).engine = none)) false s.arbiter.burst } } := by
  unfold acceptField
  rw [hlost, if_pos (show writingState .lost = true from rfl)]
  dsimp only
  rw [if_pos rfl, State.modCh_eq s, lostToStarting_setCh]
  generalize hx : fieldValuesInForce (countAccepted flywheel.isSome (s.ch c)) = x
  have hengine : x.engine = (s.ch c).engine := by rw [← hx]; rfl
  rw [← hengine]
  generalize ReadOrphaned c (decide (x.engine = none)) false s.arbiter.burst = b
  have hch : ({ s.setCh c (lostChannel x) with arbiter := { s.arbiter with burst := b } } : State).ch c = lostChannel x :=
    State.ch_setCh_same s c _
  unfold acceptedChannel
  rw [hx]
  refine (congrArg (fun t : State => t.modCh c _) (reclaim_room (by rw [hch]; exact Nat.zero_lt_succ 7))).trans ?_
  exact State.modCh_setCh_arbiter s c (lostChannel x) _ _

/-! ### A field begun (R12, R24, R25) -/

/-- The receiver that has begun a field at a valid field-start word (R11, R12, R24, R25). -/
def begunRecv (w : TimingWord) (std : Standard) (offset : Nat) (x : Receiver) : Receiver :=
  { x with
    state := .inField, lineNo := 0, fieldStd := std, accepted := false, vote := [w.parity], voteClosed := false
    lineValid := true, lossCount := 0, drift := driftFrom x.latestOffset offset, latestOffset := some offset }

theorem beginField_valid {w : TimingWord} (hv : w.valid = true) (offset : Nat) (ch : Channel) :
    beginField w false offset (clearLossCount w ch) =
      { ch with recv := begunRecv w ch.ctl.format.standard offset ch.recv } := by
  unfold beginField clearLossCount begunRecv
  rw [if_pos hv, hv]
  rfl

/-- The state in which channel `c` has begun a field `dt` later, with the reports `rep`. -/
def begunState (c : Chan) (dt : Nat) (w : TimingWord) (rep : ReportPort) (s : State) : State :=
  { s.setCh c { s.ch c with
      recv := begunRecv w (s.ch c).ctl.format.standard (arrivalOffset { s with now := s.now + dt }) (s.ch c).recv
      rep := rep }
    with now := s.now + dt }

theorem begunState_ch_same (c : Chan) (dt : Nat) (w : TimingWord) (rep : ReportPort) (s : State) :
    (begunState c dt w rep s).ch c = { s.ch c with
      recv := begunRecv w (s.ch c).ctl.format.standard (arrivalOffset { s with now := s.now + dt }) (s.ch c).recv
      rep := rep } := State.ch_setCh_same s c _

theorem begunState_ch_ne {c e : Chan} (h : e ≠ c) (dt : Nat) (w : TimingWord) (rep : ReportPort) (s : State) :
    (begunState c dt w rep s).ch e = s.ch e := State.ch_setCh_ne s h _

/-- The field begun `dt` later in the state that a timing word comes to. -/
theorem modCh_beginField {w : TimingWord} (hv : w.valid = true) (c : Chan) (dt offset : Nat) (s : State) :
    (({ s with now := s.now + dt } : State).modCh c (clearLossCount w)).modCh c (beginField w false offset) =
      { s.setCh c { s.ch c with recv := begunRecv w (s.ch c).ctl.format.standard offset (s.ch c).recv } with
        now := s.now + dt } := by
  rw [State.modCh_modCh, State.modCh_eq, beginField_valid hv]
  rfl

/-- A valid field start in SEEKING (R12, R15). -/
theorem exec_timingWord_seeking {c : Chan} {dt : Nat} {w : TimingWord} {line : LineIn} {s : State}
    (hs : (s.ch c).recv.state = .seeking) (hv : w.valid = true) (hf : w.fieldStart = true) :
    exec (.timingWord c dt w line) s = .next (acceptField c none (begunState c dt w (s.ch c).rep s)) := by
  have hstate : ((({ s with now := s.now + dt } : State).modCh c (clearLossCount w)).ch c).recv.state = .seeking := by
    rw [State.ch_modCh_same, clearLossCount_eq]
    exact hs
  show Host.Outcome.next (lineStart c w line (({ s with now := s.now + dt } : State).modCh c (clearLossCount w))) = _
  unfold lineStart startField
  rw [hstate]
  dsimp only
  rw [hv, hf, Bool.and_self, if_pos rfl, modCh_beginField hv]
  rfl

/-- The first valid field start in LOSS ends the loss (R27). -/
theorem exec_timingWord_loss {c : Chan} {dt : Nat} {w : TimingWord} {line : LineIn} {s : State}
    (hs : (s.ch c).recv.state = .loss) (hv : w.valid = true) (hf : w.fieldStart = true) :
    exec (.timingWord c dt w line) s = .next (acceptField c none
      (begunState c dt w ((raise c .inputRestored (s.ch c).fieldCount s).ch c).rep s)) := by
  have hch : (({ s with now := s.now + dt } : State).modCh c (clearLossCount w)).ch c =
      { s.ch c with recv := clearedRecv w (s.ch c).recv } := by
    rw [State.ch_modCh_same, clearLossCount_eq]
    rfl
  show Host.Outcome.next (lineStart c w line (({ s with now := s.now + dt } : State).modCh c (clearLossCount w))) = _
  unfold lineStart endLoss
  rw [hch]
  dsimp only [clearedRecv]
  rw [hs]
  dsimp only
  rw [hv, hf, Bool.and_self, if_pos rfl, modCh_beginField hv, raise_eq_setCh]
  obtain ⟨t, ht⟩ : ∃ t, t = begunState c dt w (s.ch c).rep s := ⟨_, rfl⟩
  have hrep : ((raise c .inputRestored (s.ch c).fieldCount t).ch c).rep =
      ((raise c .inputRestored (s.ch c).fieldCount s).ch c).rep :=
    raise_rep_congr (by rw [ht, begunState_ch_same]) (by rw [ht, begunState_ch_same]) (by rw [ht]; rfl) _ _
  have hset : ∀ rep, t.setCh c { t.ch c with rep := rep } = begunState c dt w rep s := fun rep => by
    rw [ht, begunState_ch_same]
    exact congrArg (fun u : State => { u with now := s.now + dt }) (State.setCh_setCh s c _ _)
  rw [← hset, ← hrep, ht]
  rfl

/-! ### The end of a loss (R27, R45, R135) -/

/-- A field that begins in LOSS begins as from SEEKING behind the event (R27). -/
theorem exec_timingWord_loss_as_seeking {c : Chan} {dt : Nat} {w : TimingWord} {line : LineIn} {s : State}
    (hs : (s.ch c).recv.state = .loss) (hv : w.valid = true) (hf : w.fieldStart = true) :
    exec (.timingWord c dt w line) s = exec (.timingWord c dt w line)
      ((raise c .inputRestored (s.ch c).fieldCount s).modCh c
        (fun ch => { ch with recv := { ch.recv with state := .seeking } })) := by
  rw [exec_timingWord_loss hs hv hf, raise_eq_setCh, State.ch_setCh_same, State.modCh_setCh,
    exec_timingWord_seeking (by rw [State.ch_setCh_same]) hv hf, State.ch_setCh_same]
  unfold begunState
  rw [State.ch_setCh_same, State.setCh_setCh]
  rfl

/-- Settles O35: the end of the loss by channel state. -/
theorem lossEnds : Obligations.LossEnds := by
  refine ⟨fun c dt w line s hs hoff hlost hv hf => ?_,
    fun c dt w line s hs hv hf => exec_timingWord_loss_as_seeking hs hv hf, fun c dt w line s rep hs hoff hv hf hrep => ?_⟩
  · rw [exec_timingWord_loss hs hv hf, acceptField_lost none (by rw [begunState_ch_same]; exact hlost)]
    generalize ((raise c .inputRestored (s.ch c).fieldCount s).ch c).rep = rep
    refine ⟨_, newRecord (s.ch c).fieldCount 0 (arrivalOffset { s with now := s.now + dt }) none, rfl, ?_⟩
    have hch : ∀ (x : Channel) (a : Arbiter) (e : Chan), ({ (begunState c dt w rep s).setCh c x with
        arbiter := a } : State).ch e = ((begunState c dt w rep s).setCh c x).ch e := fun _ _ _ => rfl
    rw [hch, State.ch_setCh_same, begunState_ch_same]
    refine ⟨rfl, rfl, rfl, rfl, ?_, rfl, rfl, rfl, rfl, rfl, rfl, rfl, rfl, rfl, rfl, rfl, rfl, rfl, ?_, rfl,
      fun e he => ?_, rfl, rfl, rfl⟩
    · show driftFrom (s.ch c).recv.latestOffset _ = 0
      rw [hoff]
      rfl
    · show (match (s.ch c).engine with | none => _ | some f => _) = _
      cases (s.ch c).engine <;> rfl
    · rw [hch, State.ch_setCh_ne _ he, begunState_ch_ne he]
  · rw [exec_timingWord_loss hs hv hf, ← hrep]
    have hdrift : ∀ offset, driftFrom (s.ch c).recv.latestOffset offset = 0 := fun offset => by rw [hoff]; rfl
    refine ⟨fun hstopped => ?_, fun hstopped hlost hroom => ?_⟩
    · rw [acceptField_stopped none (by rw [begunState_ch_same]; exact hstopped)]
      exact ⟨_, rfl, rfl, rfl, rfl, hdrift _, rfl, rfl⟩
    · rw [acceptField_room none (by rw [begunState_ch_same]; exact hstopped) (by rw [begunState_ch_same]; exact hlost)
        (by rw [begunState_ch_same]; exact hroom), begunState_ch_same]
      refine ⟨_, newRecord (s.ch c).fieldCount (lowestFreeSlot (s.ch c).ring)
        (arrivalOffset { s with now := s.now + dt }) none, rfl, ?_⟩
      rw [State.ch_setCh_same]
      refine ⟨rfl, rfl, hdrift _, rfl, rfl, rfl, rfl, rfl, rfl, rfl, rfl, rfl, rfl, rfl, rfl, fun e he => ?_, rfl⟩
      rw [State.ch_setCh_ne _ he, begunState_ch_ne he]

end Sys2Proof.Machine
end

section
/-! SUPPORT. The flywheel start (R13): the field in progress closed, and a new one begun as at a valid field-start word but for
its vote, its parity and its count. -/

namespace Sys2Proof.Machine

open Sys2Proof

/-! ### Acceptance reads neither the receiver's items nor the count of flywheel starts -/

/-- The channel with another receiver context and another count of flywheel starts. -/
def withFlywheel (x : Receiver) (n : Nat) (ch : Channel) : Channel :=
  { ch with recv := x, stats := { ch.stats with flywheelStarts := n } }

section

variable (c : Chan) (x : Receiver) (n : Nat) (s : State)

theorem raise_withFlywheel (k : EventKind) (m : Nat) :
    raise c k m (s.modCh c (withFlywheel x n)) = (raise c k m s).modCh c (withFlywheel x n) := by
  have hrep : ((raise c k m (s.modCh c (withFlywheel x n))).ch c).rep = ((raise c k m s).ch c).rep := by
    refine raise_rep_congr ?_ ?_ (State.loader_modCh s c _) k m <;> rw [State.ch_modCh_same] <;> rfl
  rw [raise_eq_setCh, hrep, State.ch_modCh_same, State.modCh_eq, State.setCh_setCh, raise_eq_setCh c s, State.modCh_setCh,
    State.ch_setCh_same]
  rfl

theorem removeFromRing_withFlywheel (ring : List FieldRecord) :
    removeFromRing c ring (s.modCh c (withFlywheel x n)) = (removeFromRing c ring s).modCh c (withFlywheel x n) := by
  unfold removeFromRing
  rw [State.modCh_modCh]
  exact (State.modCh_setCh_arbiter s c (withRing ring (s.ch c)) _ (withFlywheel x n)).symm

theorem forcedDrop_withFlywheel (m : Nat) :
    forcedDrop c m (s.modCh c (withFlywheel x n)) = (forcedDrop c m s).modCh c (withFlywheel x n) := by
  unfold forcedDrop
  rw [← raise_withFlywheel, State.modCh_modCh, State.modCh_modCh]
  rfl

theorem reclaim_withFlywheel : reclaim c (s.modCh c (withFlywheel x n)) = (reclaim c s).modCh c (withFlywheel x n) := by
  have hring : ((s.modCh c (withFlywheel x n)).ch c).ring = (s.ch c).ring := by rw [State.ch_modCh_same]; rfl
  have hlast : ((s.modCh c (withFlywheel x n)).ch c).ctl.lastOutput = (s.ch c).ctl.lastOutput := by
    rw [State.ch_modCh_same]; rfl
  unfold reclaim
  rw [hring, hlast]
  by_cases hfull : 8 ≤ (s.ch c).ring.length
  · rw [if_pos hfull, if_pos hfull]
    cases oldestUnpinned (s.ch c).ring with
    | none => rfl
    | some r =>
      dsimp only
      rw [removeFromRing_withFlywheel, forcedDrop_withFlywheel]
      split <;> rfl
  · rw [if_neg hfull, if_neg hfull]

theorem lostToStarting_withFlywheel :
    lostToStarting c (s.modCh c (withFlywheel x n)) = (lostToStarting c s).modCh c (withFlywheel x n) := by
  have hlost : lostChannel (withFlywheel x n (s.ch c)) = withFlywheel x n (lostChannel (s.ch c)) := by
    unfold lostChannel withFlywheel
    cases (s.ch c).engine <;> rfl
  rw [State.modCh_eq, lostToStarting_setCh, hlost, lostToStarting_eq]
  exact (State.modCh_setCh_arbiter s c _ _ _).symm

end

/-- The state in which an accepted field start has made room for its record (R15, R34 step 1, R45). -/
def roomMade (c : Chan) (flywheel : Option Parity) (s : State) : State :=
  let s1 := s.modCh c (fun ch => fieldValuesInForce (countAccepted flywheel.isSome ch))
  reclaim c (if (s.ch c).ctl.state = .lost then lostToStarting c s1 else s1)

theorem acceptField_writing {c : Chan} {s : State} (flywheel : Option Parity) (h : (s.ch c).ctl.state ≠ .stopped) :
    acceptField c flywheel s = (roomMade c flywheel s).modCh c (fun ch => openImage (s.ch c).fieldCount
      (appendRecord (s.ch c).fieldCount ((s.ch c).recv.latestOffset.getD 0) flywheel ch)) := by
  unfold acceptField roomMade
  rw [if_pos ((writingState_iff _).2 h)]

/-- Room is made alike for a flywheel start, whose count and receiver context alone differ (R13, R15). -/
theorem roomMade_flywheel (c : Chan) (p : Parity) (x : Receiver) (s : State) :
    roomMade c (some p) (s.modCh c (fun ch => { ch with recv := x })) = (roomMade c none s).modCh c
      (withFlywheel { x with accepted := true } (satAdd (s.ch c).stats.flywheelStarts 1)) := by
  have hcount : (s.modCh c (fun ch => { ch with recv := x })).modCh c
        (fun ch => fieldValuesInForce (countAccepted (some p).isSome ch)) =
      (s.modCh c (fun ch => fieldValuesInForce (countAccepted (none : Option Parity).isSome ch))).modCh c
        (withFlywheel { x with accepted := true } (satAdd (s.ch c).stats.flywheelStarts 1)) := by
    rw [State.modCh_modCh, State.modCh_modCh]
    rfl
  unfold roomMade
  rw [hcount, State.ch_modCh_same]
  dsimp only
  split
  · rw [lostToStarting_withFlywheel, reclaim_withFlywheel]
  · rw [reclaim_withFlywheel]

/-- Room made leaves the receiver's items, but that the field is accepted, and the count of flywheel starts. -/
theorem roomMade_stands (c : Chan) (s : State) :
    ((roomMade c none s).ch c).recv = { (s.ch c).recv with accepted := true } ∧
      ((roomMade c none s).ch c).stats.flywheelStarts = (s.ch c).stats.flywheelStarts := by
  obtain ⟨t, ht⟩ : ∃ t, t = s.modCh c (fun ch => fieldValuesInForce (countAccepted (none : Option Parity).isSome ch)) :=
    ⟨_, rfl⟩
  have hsame : t.modCh c (withFlywheel { (s.ch c).recv with accepted := true } (s.ch c).stats.flywheelStarts) = t := by
    rw [ht, State.modCh_modCh]
    rfl
  have hmade : ∃ u : State, roomMade c none s =
      u.modCh c (withFlywheel { (s.ch c).recv with accepted := true } (s.ch c).stats.flywheelStarts) := by
    unfold roomMade
    rw [← ht, ← hsame]
    dsimp only
    split
    · exact ⟨_, by rw [lostToStarting_withFlywheel, reclaim_withFlywheel]⟩
    · exact ⟨_, reclaim_withFlywheel ..⟩
  obtain ⟨u, hu⟩ := hmade
  rw [hu, State.ch_modCh_same]
  exact ⟨rfl, rfl⟩

/-- Room made leaves the field count advanced by one (R4). -/
theorem roomMade_fieldCount {c : Chan} {s : State} (h : (s.ch c).recv.state = .inField) :
    ((roomMade c none s).ch c).fieldCount = nextField (s.ch c).fieldCount := by
  have hcount : RingBecomes c s
      (s.modCh c (fun ch => fieldValuesInForce (countAccepted (none : Option Parity).isSome ch))) _ :=
    ringBecomes_modCh (ringView_countAccepted _ h)
  have hcounted := congrArg RingView.fieldCount hcount.same
  unfold roomMade
  dsimp only
  split
  · have hlost := ringBecomes_lostToStarting c
      (s.modCh c (fun ch => fieldValuesInForce (countAccepted (none : Option Parity).isSome ch)))
    exact (congrArg RingView.fieldCount (ringBecomes_reclaim c _).same).trans
      ((congrArg RingView.fieldCount hlost.same).trans hcounted)
  · exact (congrArg RingView.fieldCount (ringBecomes_reclaim c _).same).trans hcounted

/-- The record of a declared field start (R13, R30). -/
def flywheelRecord (p : Parity) (r : FieldRecord) : FieldRecord := { r with parity := some p, vote := some .flywheel }

/-- An accepted flywheel start against the acceptance of a valid field start (R13, R15, R34): it differs in the receiver's
context `x`, in its record's parity and vote, and in its count. -/
theorem acceptField_flywheel {c : Chan} {s : State} {x : Receiver} (p : Parity) (hstopped : (s.ch c).ctl.state ≠ .stopped)
    (hoffset : x.latestOffset = (s.ch c).recv.latestOffset) :
    acceptField c (some p) (s.modCh c (fun ch => { ch with recv := x })) =
      (acceptField c none s).modCh c (fun v => { v with
        recv := { x with accepted := true }
        ring := v.ring.dropLast ++ v.ring.getLast?.toList.map (flywheelRecord p)
        stats := { v.stats with flywheelStarts := min 65535 (v.stats.flywheelStarts + 1) } }) := by
  have hch : (s.modCh c (fun ch => { ch with recv := x })).ch c = { s.ch c with recv := x } := State.ch_modCh_same s c _
  obtain ⟨-, hflywheel⟩ := roomMade_stands c s
  rw [acceptField_writing (some p) (by rw [hch]; exact hstopped), acceptField_writing none hstopped, roomMade_flywheel, hch,
    State.modCh_modCh, State.modCh_modCh, State.modCh_eq, State.modCh_eq]
  refine congrArg ((roomMade c none s).setCh c) ?_
  dsimp only
  rw [hoffset]
  generalize hr : (roomMade c none s).ch c = r at hflywheel
  unfold openImage appendRecord withFlywheel
  dsimp only
  rw [hflywheel, List.dropLast_concat, List.getLast?_concat]
  rfl

/-- What an accepted field start leaves of the receiver, the field count, the flywheel count and the ring's end (R4, R34). -/
theorem acceptField_accepted {c : Chan} {s : State} (hstopped : (s.ch c).ctl.state ≠ .stopped)
    (h : (s.ch c).recv.state = .inField) :
    ((acceptField c none s).ch c).recv = { (s.ch c).recv with accepted := true } ∧
      ((acceptField c none s).ch c).fieldCount = nextField (s.ch c).fieldCount ∧
      ((acceptField c none s).ch c).stats.flywheelStarts = (s.ch c).stats.flywheelStarts ∧
      ∃ slot, ((acceptField c none s).ch c).ring.getLast? =
        some (newRecord (s.ch c).fieldCount slot ((s.ch c).recv.latestOffset.getD 0) none) := by
  obtain ⟨hrecv, hflywheel⟩ := roomMade_stands c s
  rw [acceptField_writing none hstopped, State.ch_modCh_same]
  exact ⟨hrecv, roomMade_fieldCount h, hflywheel, lowestFreeSlot ((roomMade c none s).ch c).ring, List.getLast?_concat⟩

/-! ### The line ahead of a flywheel start, and the field closed (R13, R14) -/

/-- The line in progress at a flywheel start is neither a window line nor an active one (R13, R17). -/
theorem endLine_flywheel {ch : Channel} (line : LineIn) (h : ch.recv.lineNo + 1 = flywheelLine ch.recv.fieldStd) :
    endLine line ch = ch := by
  have hwin : inControlWindow ch.recv.fieldStd ch.recv.lineNo = false := by
    unfold inControlWindow
    unfold flywheelLine at h
    rw [decide_eq_false (p := ch.recv.lineNo < firstActive ch.recv.fieldStd) (by omega), Bool.and_false]
  have hact : activeLineOf ch.recv.fieldStd ch.recv.lineNo = none := by
    unfold activeLineOf
    unfold flywheelLine at h
    rw [if_neg (by omega)]
  unfold endLine
  rw [hwin, hact]
  rfl

/-- The closing of a field leaves the controller, the field count and the count of flywheel starts; of the receiver, its vote
closed before, the line buffer at most (R14, R36). -/
theorem fieldClosed_keeps {c : Chan} {a u : State} (h : FieldClosed c a u) (hvote : (a.ch c).recv.voteClosed = true) :
    (u.ch c).ctl = (a.ch c).ctl ∧ (u.ch c).fieldCount = (a.ch c).fieldCount ∧
      (u.ch c).stats.flywheelStarts = (a.ch c).stats.flywheelStarts ∧
      (u.ch c).recv = { (a.ch c).recv with buffer := (u.ch c).recv.buffer } ∧
      (u.ch c).recv.buffer.length ≤ (a.ch c).recv.buffer.length := by
  obtain ⟨hidle, haccepted⟩ := h
  cases hacc : (a.ch c).recv.accepted with
  | false => rw [hidle hacc]; exact ⟨rfl, rfl, rfl, rfl, le_rfl⟩
  | true =>
    obtain ⟨e, h, voted, ring, stats, ended, rfl, -, -, hu, hstats, -⟩ := haccepted hacc
    obtain ⟨ring', cad, rep, locks, losses, hend⟩ := cadenceFieldEnd_eq_setCh c (a.setCh c { a.ch c with
      recv := { (a.ch c).recv with
        buffer := [], voteClosed := true
        prevParity := if (a.ch c).recv.voteClosed = true then (a.ch c).recv.prevParity else some voted.1 }
      ring := ring, stats := stats })
    rw [hu, hend, State.ch_setCh_same, State.ch_setCh_same]
    dsimp only
    rw [if_pos hvote, ← hvote, hstats]
    exact ⟨rfl, rfl, rfl, rfl, Nat.zero_le _⟩

/-- The arrival offset by R24. -/
theorem arrivalOffset_eq (s : State) : arrivalOffset s = if s.startSeen = true then (match s.rtu.latestStart with
    | some t => min 65535 ((s.now - t) / (match s.rtu.family with | .f50 => 5994 | .f5994 => 5000))
    | none => 0) else 0 := by
  unfold arrivalOffset
  cases s.startSeen <;> cases s.rtu.latestStart <;> cases s.rtu.family <;> rfl

/-- The drift by R25. -/
theorem driftFrom_eq (latest : Option Nat) (offset : Nat) : driftFrom latest offset = match latest with
    | none => 0
    | some p => if ((offset : Int) - p) % 65536 < 32768 then ((offset : Int) - p) % 65536
        else ((offset : Int) - p) % 65536 - 65536 := by
  cases latest <;> rfl

theorem flywheelLine_eq (std : Standard) :
    flywheelLine std = match std with | .s625 => 319 | .s525 => 271 | .s405 => 210 := by
  cases std <;> rfl

theorem flywheelParity_eq (x : Receiver) :
    flywheelParity x = match x.prevParity with | some .top => .bottom | some .bottom => .top | none => .top := by
  unfold flywheelParity
  rcases x.prevParity with _ | p
  · rfl
  · cases p <;> rfl

/-- The receiver that has begun a field at a flywheel start (R13, R24, R25). -/
def flywheelRecv (w : TimingWord) (p : Parity) (std : Standard) (offset : Nat) (x : Receiver) : Receiver :=
  { begunRecv w std offset x with
    vote := [], voteClosed := true, prevParity := some p, lineValid := w.valid, lossCount := x.lossCount }

theorem beginField_flywheel (w : TimingWord) (offset : Nat) (ch : Channel) : beginField w true offset ch =
    { ch with recv := flywheelRecv w (flywheelParity ch.recv) ch.ctl.format.standard offset ch.recv } := rfl

/-- A line start at the flywheel line with no valid field-start word (R13). -/
theorem lineStart_flywheel {c : Chan} {w : TimingWord} {line : LineIn} {s : State}
    (hin : (s.ch c).recv.state = .inField) (hw : (w.valid && w.fieldStart) = false)
    (hline : (s.ch c).recv.lineNo + 1 = flywheelLine (s.ch c).recv.fieldStd) :
    lineStart c w line s = startFlywheel c w (closeField c line s) := by
  unfold lineStart
  rw [hin]
  dsimp only
  rw [hw, if_neg Bool.false_ne_true, if_pos hline]

/-- The state in which channel `c` has begun a field at a valid field-start word of parity `p`, at arrival offset `offset`. -/
def validStart (c : Chan) (p : Parity) (offset : Nat) (u : State) : State :=
  u.setCh c { u.ch c with recv := begunRecv ⟨true, true, p⟩ (u.ch c).ctl.format.standard offset (u.ch c).recv }

/-- A valid field-start word at once, in the state with its receiver in SEEKING (R12, R15). -/
theorem exec_timingWord_validStart (c : Chan) (p : Parity) (line : LineIn) (u : State) :
    exec (.timingWord c 0 ⟨true, true, p⟩ line)
        (u.modCh c (fun ch => { ch with recv := { ch.recv with state := .seeking } })) =
      .next (acceptField c none (validStart c p (arrivalOffset u) u)) := by
  rw [exec_timingWord_seeking (by rw [State.ch_modCh_same]) rfl rfl]
  unfold begunState validStart
  rw [State.ch_modCh_same, State.modCh_eq, State.setCh_setCh]
  rfl

/-- What a declared field start changes against a valid one, on a channel that was in state `x` (R13, R15). -/
def declaredStart (w : TimingWord) (p : Parity) (loss : Nat) (x : ChanState) (ch : Channel) : Channel :=
  { ch with
    recv := { ch.recv with
      vote := [], voteClosed := true, prevParity := some p, lineValid := w.valid, lossCount := loss }
    ring := if x = .stopped then ch.ring else ch.ring.dropLast ++ ch.ring.getLast?.toList.map (flywheelRecord p)
    stats := if x = .stopped then ch.stats
      else { ch.stats with flywheelStarts := min 65535 (ch.stats.flywheelStarts + 1) } }

/-- A flywheel start against a valid field start of the declared parity (R13, R15). -/
theorem startFlywheel_eq (c : Chan) (w : TimingWord) (u : State) : startFlywheel c w u =
    (acceptField c none (validStart c (flywheelParity (u.ch c).recv) (arrivalOffset u) u)).modCh c
      (declaredStart w (flywheelParity (u.ch c).recv) (u.ch c).recv.lossCount (u.ch c).ctl.state) := by
  unfold startFlywheel
  generalize hp : flywheelParity (u.ch c).recv = p
  generalize arrivalOffset u = offset
  have hch : (validStart c p offset u).ch c = { u.ch c with
      recv := begunRecv ⟨true, true, p⟩ (u.ch c).ctl.format.standard offset (u.ch c).recv } := State.ch_setCh_same u c _
  have hbegun : u.modCh c (beginField w true offset) = (validStart c p offset u).modCh c (fun ch => { ch with
      recv := flywheelRecv w p (u.ch c).ctl.format.standard offset (u.ch c).recv }) := by
    unfold validStart
    rw [State.modCh_setCh, State.modCh_eq, beginField_flywheel, hp]
  have hstate : ((validStart c p offset u).ch c).ctl.state = (u.ch c).ctl.state := by rw [hch]
  rw [hbegun]
  unfold declaredStart
  by_cases hstopped : (u.ch c).ctl.state = .stopped
  · rw [acceptField_stopped none (hstate.trans hstopped),
      acceptField_stopped (some p) (by rw [State.ch_modCh_same]; exact hstate.trans hstopped), State.modCh_eq, State.modCh_eq,
      hch, if_pos hstopped, if_pos hstopped]
    rfl
  · have hwriting : ((validStart c p offset u).ch c).ctl.state ≠ .stopped := fun h => hstopped (hstate.symm.trans h)
    obtain ⟨hrecv, -⟩ := acceptField_accepted hwriting (by rw [hch]; rfl)
    rw [acceptField_flywheel p hwriting (by rw [hch]; rfl), State.modCh_eq, State.modCh_eq, if_neg hstopped, if_neg hstopped,
      hrecv, hch]
    rfl

/-- What a declared field start leaves, by the channel's state ahead of it (R13, R15, R30). -/
theorem declaredStart_result (c : Chan) (w : TimingWord) (p : Parity) (loss offset : Nat) (u : State) {t : Channel}
    (ht : t = declaredStart w p loss (u.ch c).ctl.state ((acceptField c none (validStart c p offset u)).ch c)) :
    (∃ b, t.recv = { flywheelRecv w p (u.ch c).ctl.format.standard offset (u.ch c).recv with
      accepted := b, lossCount := loss }) ∧
    ((u.ch c).ctl.state = .stopped → t.recv.accepted = false ∧ t.fieldCount = (u.ch c).fieldCount ∧
      t.stats.flywheelStarts = (u.ch c).stats.flywheelStarts) ∧
    ((u.ch c).ctl.state ≠ .stopped → t.recv.accepted = true ∧ t.fieldCount = nextField (u.ch c).fieldCount ∧
      t.stats.flywheelStarts = min 65535 ((u.ch c).stats.flywheelStarts + 1) ∧
      ∃ slot, t.ring.getLast? = some (newRecord (u.ch c).fieldCount slot offset (some p))) := by
  have hch : (validStart c p offset u).ch c = { u.ch c with
      recv := begunRecv ⟨true, true, p⟩ (u.ch c).ctl.format.standard offset (u.ch c).recv } := State.ch_setCh_same u c _
  have hstate : ((validStart c p offset u).ch c).ctl.state = (u.ch c).ctl.state := by rw [hch]
  subst ht
  unfold declaredStart
  by_cases hstopped : (u.ch c).ctl.state = .stopped
  · rw [acceptField_stopped none (hstate.trans hstopped), hch, if_pos hstopped, if_pos hstopped]
    exact ⟨⟨false, rfl⟩, fun _ => ⟨rfl, rfl, rfl⟩, fun h => absurd hstopped h⟩
  · obtain ⟨hrecv, hcount, hflywheel, slot, hlast⟩ := acceptField_accepted (s := validStart c p offset u)
      (fun h => hstopped (hstate.symm.trans h)) (by rw [hch]; rfl)
    rw [if_neg hstopped, if_neg hstopped]
    dsimp only
    rw [hrecv, hcount, hflywheel, hlast, hch]
    exact ⟨⟨true, rfl⟩, fun h => absurd h hstopped, fun _ => ⟨rfl, rfl, rfl, slot, List.getLast?_concat⟩⟩

/-- Settles O34: the flywheel line's start is the field's closing and a declared start, which differs from a valid one as
`declaredStart` says. -/
theorem flywheelStartDeclared : Obligations.FlywheelStartDeclared := by
  intro c dt w line s a p offset hin hw hvote hline hp hoffset ha
  replace hline := hline.trans (flywheelLine_eq _).symm
  replace hp := hp.trans (flywheelParity_eq _).symm
  obtain ⟨s', hs'⟩ : ∃ s' : State, s' = ({ s with now := s.now + dt } : State).modCh c (clearLossCount w) := ⟨_, rfl⟩
  have hmine : s'.ch c = { s.ch c with recv := clearedRecv w (s.ch c).recv } := by
    rw [hs', State.ch_modCh_same, clearLossCount_eq]
    rfl
  have hjudged : a = arbitrate (s'.modCh c (endLine line)) := by
    rw [ha, State.modCh_eq, hmine, hs', State.modCh_eq]
    exact congrArg arbitrate (congrArg (fun t : State => { t with now := s.now + dt }) (State.setCh_setCh s c _ _).symm)
  have hgrant : GrantMoves (s'.ch c) (a.ch c) := by
    have h := grantMoves_arbitrate (s'.modCh c (endLine line)) c
    rwa [State.ch_modCh_same, endLine_flywheel line (by rw [hmine]; exact hline), ← hjudged] at h
  have hclosed := fieldClosed_closeField c line hjudged
  have hdev := keepsDevice_closeField c line s'
  have hexec : exec (.timingWord c dt w line) s = .next (startFlywheel c w (closeField c line s')) := by
    rw [← lineStart_flywheel (by rw [hmine]; exact hin) hw (by rw [hmine]; exact hline), hs']
    rfl
  generalize closeField c line s' = u at hclosed hdev hexec
  obtain ⟨hctl, hcount, hflywheel, hrecv, hbuffer⟩ := fieldClosed_keeps hclosed (by rw [hgrant.eq, hmine]; exact hvote)
  replace hbuffer := hbuffer.trans hgrant.buffer
  rw [hgrant.eq, hmine] at hctl hcount hflywheel hrecv
  rw [hmine] at hbuffer
  have harrival : arrivalOffset u = offset := by
    rw [arrivalOffset_eq, hdev.startSeen, hdev.rtu, hdev.now, hs']
    exact hoffset.symm
  have hparity : flywheelParity (u.ch c).recv = p := by rw [hrecv, hp]; rfl
  have hloss : (u.ch c).recv.lossCount = if w.valid then 0 else (s.ch c).recv.lossCount := by rw [hrecv]; rfl
  have hlatest : (u.ch c).recv.latestOffset = (s.ch c).recv.latestOffset := by rw [hrecv]; rfl
  have hstart := startFlywheel_eq c w u
  rw [hparity, harrival, hloss, hctl] at hstart
  obtain ⟨⟨b, hresult⟩, hstopped, haccepted⟩ := declaredStart_result c w p
    (if w.valid then 0 else (s.ch c).recv.lossCount) offset u rfl
  rw [hctl] at hresult hstopped haccepted
  rw [hcount, hflywheel] at hstopped haccepted
  refine ⟨u, acceptField c none (validStart c p offset u), startFlywheel c w u, hclosed, ?_, hexec, hstart, ?_⟩
  · rw [exec_timingWord_validStart, harrival]
  · rw [hstart, State.ch_modCh_same]
    refine ⟨by rw [hresult]; rfl, by rw [hresult]; rfl, by rw [hresult]; rfl, by rw [hresult]; rfl, by rw [hresult]; rfl,
      by rw [hresult]; rfl, by rw [hresult]; exact hbuffer, by rw [hresult]; rfl, ?_, hstopped, fun hwriting => ?_⟩
    · rw [hresult]
      exact (congrArg (fun latest => driftFrom latest offset) hlatest).trans (driftFrom_eq _ _)
    · obtain ⟨hacc, hfields, hstarts, slot, hlast⟩ := haccepted hwriting
      exact ⟨hacc, hfields, hstarts, _, hlast, rfl, rfl, rfl, rfl, rfl, rfl, rfl, rfl⟩

end Sys2Proof.Machine
end

section
/-! SUPPORT. The resets: the values they leave, what a write burst cut short leaves of the DRAM, and the invariants that the
reset state meets (R29, R47, R52, R59, R82, R122, R140, R142, R154, R176, R177). -/

namespace Sys2Proof.Machine

open Sys2Proof

/-! ### The built-in tables (R142) -/

/-- A byte of an image made of blocks of one length. -/
theorem byteAt_flatMap_range {f : Nat → List Byte} {k : Nat} (hf : ∀ i, (f i).length = k) {n i j : Nat} (hi : i < n)
    (hj : j < k) : byteAt ((List.range n).flatMap f) (k * i + j) = byteAt (f i) j := by
  have hlength : ∀ m, ((List.range m).flatMap f).length = k * m := fun m => by
    simp [List.length_flatMap, hf, Nat.mul_comm]
  unfold byteAt
  induction n with
  | zero => omega
  | succ n ih =>
    rw [List.range_succ, List.flatMap_append, List.flatMap_singleton]
    rcases Nat.lt_or_ge i n with hlt | hge
    · have hin : k * i + j < k * n := by
        have := Nat.mul_le_mul_left k (Nat.succ_le_of_lt hlt)
        rw [Nat.mul_succ] at this
        omega
      rw [List.getD_append _ _ _ _ (by rw [hlength]; exact hin), ih hlt]
    · obtain rfl : i = n := by omega
      rw [List.getD_append_right _ _ _ _ (by rw [hlength]; omega), hlength, Nat.add_sub_cancel_left]

/-- The eight bytes of a phase of the built-in coefficients (R142, R144). -/
def builtinPhase (ph : Nat) : List Byte :=
  [0, 0, BitVec.ofNat 8 (512 - 8 * ph), BitVec.ofNat 8 ((512 - 8 * ph) / 256),
    BitVec.ofNat 8 (8 * ph), BitVec.ofNat 8 (8 * ph / 256), 0, 0]

theorem coefOf_builtin {ph n : Nat} (hph : ph < 64) (hn : n < 4) :
    coefOf builtinCoefs ph n = coefValue (builtinPhase ph) n := by
  have hbyte : ∀ j, j < 8 → byteAt builtinCoefs (8 * ph + j) = byteAt (builtinPhase ph) j := fun j hj =>
    byteAt_flatMap_range (f := builtinPhase) (fun _ => rfl) hph hj
  unfold coefOf coefValue
  rw [show 2 * (4 * ph + n) = 8 * ph + 2 * n by omega, Nat.add_assoc, hbyte _ (by omega), hbyte _ (by omega)]

/-- The built-in coefficients, phase by phase (R142, R144). -/
theorem builtinCoefs_values {ph : Nat} (h : ph < 64) :
    coefOf builtinCoefs ph 0 = 0 ∧ coefOf builtinCoefs ph 1 = 512 - 8 * (ph : Int) ∧
    coefOf builtinCoefs ph 2 = 8 * (ph : Int) ∧ coefOf builtinCoefs ph 3 = 0 := by
  have hphase : ∀ ph < 64, coefValue (builtinPhase ph) 0 = 0 ∧ coefValue (builtinPhase ph) 1 = 512 - 8 * (ph : Int) ∧
      coefValue (builtinPhase ph) 2 = 8 * (ph : Int) ∧ coefValue (builtinPhase ph) 3 = 0 := by
    decide +kernel
  rw [coefOf_builtin h (by decide), coefOf_builtin h (by decide), coefOf_builtin h (by decide),
    coefOf_builtin h (by decide)]
  exact hphase ph h

theorem length_builtinCoefs : builtinCoefs.length = 512 := by simp [builtinCoefs, List.length_flatMap]

/-- No built-in coefficient is out of range, and every phase sums to 512 (R149). -/
theorem coefFaults_builtin : coefFaults builtinCoefs = [] := by
  have hrange : ∀ n ∈ List.range 256, ¬ coefOutOfRange (coefValue builtinCoefs n) = true := fun n hn => by
    have hph : n / 4 < 64 := by have := List.mem_range.1 hn; omega
    obtain ⟨h0, h1, h2, h3⟩ := builtinCoefs_values hph
    have hvalue : coefValue builtinCoefs n = coefOf builtinCoefs (n / 4) (n % 4) := by
      unfold coefOf
      rw [Nat.div_add_mod]
    have hcase : n % 4 = 0 ∨ n % 4 = 1 ∨ n % 4 = 2 ∨ n % 4 = 3 := by omega
    unfold coefOutOfRange
    rw [hvalue]
    rcases hcase with h | h | h | h <;> rw [h] <;> simp only [h0, h1, h2, h3, Bool.or_eq_true, decide_eq_true_eq] <;> omega
  have hsum : ∀ ph ∈ List.range 64, ¬ decide (phaseSum builtinCoefs ph ≠ 512) = true := fun ph hph => by
    obtain ⟨h0, h1, h2, h3⟩ := builtinCoefs_values (List.mem_range.1 hph)
    simp [phaseSum, h0, h1, h2, h3]
  unfold coefFaults
  rw [List.filter_eq_nil_iff.2 hrange, List.filter_eq_nil_iff.2 hsum]
  rfl

/-- The built-in curve, entry by entry (R142). -/
theorem builtinCurve_values : builtinCurve.length = 32 ∧ ∀ k < 32, curveWeight builtinCurve k = min 64 (16 * k) := by
  decide +kernel

theorem patternFaults_builtin : patternFaults builtinPattern22 = [] ∧ patternFaults builtinPattern32 = [] ∧
    patternFaults unusedPattern = [] := by
  decide

theorem curveFaults_builtin : curveFaults builtinCurve = [] := by decide +kernel

/-- Each kind of entry holds its own built-in images (R142). -/
theorem tableImage_builtin (e : TableEntry) : tableImage builtinTables e = match e with
    | .pattern i => if i = 0 then builtinPattern22 else if i = 1 then builtinPattern32 else unusedPattern
    | .coef _ => builtinCoefs
    | .curve _ => builtinCurve := by
  cases e with
  | pattern i => fin_cases i <;> rfl
  | coef i => fin_cases i <;> rfl
  | curve i => fin_cases i <;> rfl

theorem tablesBuiltIn_builtinTables : TablesBuiltIn builtinTables := by
  refine ⟨rfl, rfl, fun i hi => ?_, fun i => ?_, fun i => ?_⟩
  · have himage : builtinTables.patterns[i.val] = _ := tableImage_builtin (.pattern i)
    rw [himage]
    dsimp only
    rw [if_neg (by rintro rfl; simp at hi), if_neg (by rintro rfl; simp at hi)]
    rfl
  · have himage : builtinTables.coefs[i.val] = builtinCoefs := tableImage_builtin (.coef i)
    rw [himage]
    exact ⟨length_builtinCoefs, fun _ => builtinCoefs_values⟩
  · have himage : builtinTables.curves[i.val] = builtinCurve := tableImage_builtin (.curve i)
    rw [himage]
    exact builtinCurve_values

theorem entryValid_of {e : TableEntry} {image : List Byte} (hsize : image.length = entrySize e)
    (hfaults : imageFaults e image = []) : entryValid e image = true := by
  simp [entryValid, hsize, hfaults]

/-- The built-in images pass their validation (R141, R142, R149). -/
theorem tablesSound_builtinTables : TablesSound builtinTables := by
  refine ⟨fun e => ?_, fun _ _ => rfl⟩
  obtain ⟨h22, h32, hunused⟩ := patternFaults_builtin
  rw [tableImage_builtin]
  cases e with
  | pattern i =>
    dsimp only
    split
    · exact entryValid_of rfl h22
    · split
      · exact entryValid_of rfl h32
      · exact entryValid_of rfl hunused
  | coef i => exact entryValid_of length_builtinCoefs coefFaults_builtin
  | curve i => exact entryValid_of builtinCurve_values.1 curveFaults_builtin

/-! ### The values of a reset -/

theorem statsCleared_zeroStats : StatsCleared zeroStats := by unfold StatsCleared; decide

/-- What both resets leave of a channel, whatever goes on of its output frame. -/
theorem channelReset_values {ch : Channel} (h : ∃ ended out, ch = { Channel.reset with ended := ended, out := out }) :
    ChannelStopped ch ∧ PortsAfterRestart ch ∧ DefaultsInForce ch := by
  obtain ⟨ended, out, rfl⟩ := h
  exact ⟨⟨⟨rfl, rfl, rfl, rfl, rfl, rfl, rfl, rfl, rfl⟩, rfl, rfl, ⟨rfl, rfl, rfl, rfl⟩, rfl, rfl, rfl, rfl, rfl, rfl,
    statsCleared_zeroStats⟩, ⟨rfl, rfl, rfl, rfl⟩, rfl, rfl, rfl, rfl⟩

/-- A state in which every channel and every shared block is reset holds the reset values. -/
theorem resetValues_of_reset {s : State} (hch : ∀ c, ∃ ended out, s.ch c = { Channel.reset with ended := ended, out := out })
    (h : s = { State.reset with
      chans := s.chans, dram := s.dram, dramErrs := s.dramErrs, resetCause := s.resetCause
      deviceAddress := s.deviceAddress, draws := s.draws, pending := s.pending }) : ResetValues s := by
  refine ⟨fun c => channelReset_values (hch c), ?_⟩
  rw [h]
  exact ⟨rfl, rfl, rfl, rfl, tablesBuiltIn_builtinTables, rfl, rfl, rfl, rfl, rfl, rfl, rfl, rfl⟩

theorem State.reset_ch (c : Chan) : State.reset.ch c = Channel.reset := by cases c <;> rfl

/-- Settles O5: the reset state is reset in every part. -/
theorem resetStateValues : Obligations.ResetStateValues :=
  ⟨resetValues_of_reset (fun c => ⟨none, none, State.reset_ch c⟩) rfl,
    fun c => by rw [State.reset_ch]; exact ⟨rfl, rfl⟩, rfl, rfl⟩

/-- Settles O59: empty rings, queues and counters, the built-in tables, and a free-running RTU without a start. -/
theorem resetMeetsInvariants : Obligations.ResetMeetsInvariants := by
  refine ⟨reset_memory_wf, fun c => ?_, fun c => ?_, ⟨tablesSound_builtinTables, rfl⟩, fun c => ?_,
    ⟨rfl, fun t h => by cases h⟩, fun c => ?_, fun c => ?_, fun c => ?_⟩
  · cases c <;> decide
  · cases c <;> decide
  · rw [State.reset_ch]; exact ⟨by decide, fun f h => by cases h⟩
  · rw [State.reset_ch]; exact ⟨by decide, by decide, by decide, by decide, by decide⟩
  · rw [State.reset_ch]; exact fun r hr => by cases hr
  · rw [State.reset_ch]
    exact ⟨⟨by decide, fun r hr => (by cases hr), by decide, List.Pairwise.nil⟩, fun r hr => (by cases hr),
      fun r hr => by cases hr⟩

/-! ### Power-on (R47) -/

/-- What power-on finds at an address that is found once (R47). -/
theorem dramRead_foundBytes {found : List Host.Cell} {a : Nat} {b : Byte} (ha : a < dramSize)
    (h : found.filter (fun x => x.1 == a) = [(a, b)]) : dramRead (foundBytes found) a = b := by
  have hstep : ∀ (l : List Host.Cell) (m : List Host.Cell),
      dramRead (l.foldl (fun m x => if x.1 < dramSize then dramWrite m x.1 [x.2] else m) m) a =
        ((l.filter (fun x => x.1 == a)).getLast?.map Prod.snd).getD (dramRead m a) := by
    intro l
    induction l with
    | nil => exact fun m => rfl
    | cons x l ih =>
      intro m
      rw [List.foldl_cons, ih]
      by_cases hx : x.1 = a
      · have hread : dramRead (dramWrite m x.1 [x.2]) a = x.2 :=
          hx ▸ dramRead_dramWrite_inside (i := 0) (bytes := [x.2]) (by simp)
        rw [if_pos (by rw [hx]; exact ha), hread, List.filter_cons_of_pos (by simpa using hx), List.getLast?_cons]
        cases (l.filter (fun x => x.1 == a)).getLast? <;> rfl
      · have hread : dramRead (if x.1 < dramSize then dramWrite m x.1 [x.2] else m) a = dramRead m a := by
          split
          · exact dramRead_dramWrite_outside (by simp only [List.length_singleton]; omega)
          · rfl
        rw [hread, List.filter_cons_of_neg (by simpa using hx)]
  unfold foundBytes
  rw [hstep, h]
  rfl

/-- Settles O3: the reset state but for what is found in the DRAM, the straps, and the model's own queue and draws. -/
theorem powerOnResetValues : Obligations.PowerOnResetValues := by
  intro straps found errs s
  have hch : ∀ c, ({ State.reset with
      dram := foundBytes found, dramErrs := foundErrors errs, deviceAddress := straps
      draws := s.draws, pending := s.pending } : State).ch c = Channel.reset := State.reset_ch
  refine ⟨_, rfl, resetValues_of_reset (fun c => ⟨none, none, hch c⟩) rfl, fun c => ?_, rfl, rfl, rfl,
    fun a b ha hb => dramRead_foundBytes ha hb⟩
  rw [hch]
  exact ⟨rfl, rfl⟩

/-! ### A write burst cut short (R52) -/

/-- `t` has the DRAM and the stored errors of `s` at address `a`. -/
def SameAt (a : Nat) (s t : State) : Prop :=
  dramRead t.dram a = dramRead s.dram a ∧ storedError t.dramErrs a = storedError s.dramErrs a

/-- Leaving out errors of other addresses does not matter to an address. -/
theorem storedError_filter {errs : List (Nat × WordError)} {a : Nat} {p : Nat × WordError → Bool}
    (h : ∀ x, x.1 = a → p x = true) : storedError (errs.filter p) a = storedError errs a := by
  unfold storedError
  rw [List.find?_filter]
  refine congrArg (Option.map Prod.snd) (congrArg (fun q => List.find? q errs) (funext fun x => ?_))
  by_cases hx : x.1 = a
  · simp [h x hx, hx]
  · simp [hx]

/-- Fresh check bits elsewhere leave an address's error (R48). -/
theorem storedError_clearErrorsAt {errs : List (Nat × WordError)} {base n a : Nat} (h : a < base ∨ base + n ≤ a) :
    storedError (clearErrorsAt errs base n) a = storedError errs a :=
  storedError_filter fun x hx => by rw [hx]; simpa using h

/-- An error stored elsewhere leaves an address's error. -/
theorem storedError_putError {errs : List (Nat × WordError)} {b a : Nat} (h : a ≠ b) (e : WordError) :
    storedError (putError errs b e) a = storedError errs a := by
  have hlow := storedError_filter (errs := errs) (a := a) (p := fun x => decide (x.1 < b))
  have hhigh := storedError_filter (errs := errs) (a := a) (p := fun x => decide (b < x.1))
  have hnone : ∀ p : Nat × WordError → Bool, (∀ x, x.1 = a → p x = false) →
      (errs.filter p).find? (fun x => x.1 == a) = none := fun p hp => by
    rw [List.find?_eq_none]
    intro x hx
    have := (List.mem_filter.1 hx).2
    by_cases hxa : x.1 = a
    · rw [hp x hxa] at this; cases this
    · simpa using hxa
  have hbne : ((b, e).1 == a) = false := by simpa using Ne.symm h
  unfold storedError at hlow hhigh ⊢
  unfold putError
  rw [List.find?_append, List.find?_cons, hbne]
  rcases Nat.lt_or_ge a b with hab | hab
  · rw [hnone (fun x => decide (b < x.1)) (fun x hx => by rw [hx]; simp; omega), Option.or_none]
    exact hlow (fun x hx => by rw [hx]; simpa using hab)
  · rw [hnone (fun x => decide (x.1 < b)) (fun x hx => by rw [hx]; simpa using hab), Option.none_or]
    exact hhigh (fun x hx => by rw [hx]; simp; omega)

/-- Six words pack into eight bytes, fewer into none (R48). -/
theorem length_packLine_six (words : List Nat) : (packLine (words.take 6)).length ≤ 8 := by
  match words with
  | [] | [_] | [_, _] | [_, _, _] | [_, _, _, _] | [_, _, _, _, _] => simp [packLine]
  | _ :: _ :: _ :: _ :: _ :: _ :: _ => simp [packLine, wordBytes]

/-- One word of a burst cut short leaves what is outside the word (R52). -/
theorem cutWordAt_outside {c : Chan} {slot : Fin 8} {k w a : Nat} (words : List Nat) (draw : Nat) (s : State)
    (h : a < lineAddress c slot k + 8 * w ∨ lineAddress c slot k + 8 * w + 8 ≤ a) :
    SameAt a s (cutWordAt c slot k words draw s w) := by
  unfold cutWordAt wordAddress
  dsimp only
  split
  · exact ⟨rfl, rfl⟩
  · have hlen := length_packLine_six (words.drop (6 * w))
    exact ⟨dramRead_dramWrite_outside (by omega), storedError_clearErrorsAt h⟩
  · have hlen : ∀ v, (wordBytes v).length = 8 := fun _ => rfl
    exact ⟨dramRead_dramWrite_outside (by rw [hlen]; exact h), storedError_putError (by omega) _⟩

/-- A write burst cut short leaves what is outside its line place (R52). -/
theorem cutBurst_outside {c : Chan} {slot : Fin 8} {k a : Nat} {words : List Nat} {s : State}
    (hb : s.arbiter.burst = some (.write c slot k words))
    (h : a < lineAddress c slot k ∨ lineAddress c slot k + 1920 ≤ a) : SameAt a s (cutBurst s) := by
  have hfold : ∀ (l : List Nat) (t : State), (∀ w ∈ l, w < 240) →
      SameAt a t (l.foldl (cutWordAt c slot k words s.draws) t) := by
    intro l
    induction l with
    | nil => exact fun t _ => ⟨rfl, rfl⟩
    | cons w l ih =>
      intro t hl
      have hw := hl w (by simp)
      obtain ⟨hd, he⟩ := cutWordAt_outside (a := a) words s.draws t (c := c) (slot := slot) (k := k) (w := w) (by omega)
      obtain ⟨hd', he'⟩ := ih (cutWordAt c slot k words s.draws t w) fun x hx => hl x (by simp [hx])
      exact ⟨hd'.trans hd, he'.trans he⟩
  unfold cutBurst
  rw [hb]
  exact hfold _ s fun w hw => List.mem_range.1 hw

/-- With no write burst in flight a reset cuts nothing short (R52). -/
theorem cutBurst_idle {s : State} (h : ∀ c slot k words, s.arbiter.burst ≠ some (.write c slot k words)) :
    cutBurst s = s := by
  unfold cutBurst
  split
  · next hb => exact absurd hb (h _ _ _ _)
  · rfl

theorem cutWordAt_pending (c : Chan) (slot : Fin 8) (k : Nat) (words : List Nat) (draw : Nat) (s : State) (w : Nat) :
    (cutWordAt c slot k words draw s w).pending = s.pending := by
  unfold cutWordAt
  dsimp only
  split <;> rfl

/-- A burst cut short leaves the queue of commands. -/
theorem cutBurst_pending (s : State) : (cutBurst s).pending = s.pending := by
  unfold cutBurst
  split
  · show ((List.range 240).foldl _ s).pending = s.pending
    generalize List.range 240 = l
    refine List.foldlRecOn l _ (motive := fun t : State => t.pending = s.pending) rfl fun t ht w _ => ?_
    rw [cutWordAt_pending, ht]
  · rfl

/-! ### Pin reset (R47) -/

/-- What a pin reset leaves of a channel's output frame (R89, R122). -/
theorem pinResetChannel_frame (ch : Channel) : OutputFrameEnded ch (pinResetChannel ch) := by
  refine ⟨rfl, fun h => ?_, fun x h => ?_⟩ <;> rw [pinResetChannel_ended] <;> unfold endedFrame <;> rw [h]
  rfl

/-- Settles O4: as at power-on, with the rest of the output frame left to be sent and the DRAM outside a cut line place. -/
theorem pinResetValues : Obligations.PinResetValues := by
  intro straps s
  have hch : ∀ (t : State) (c : Chan), ({ State.reset with
      chans := ⟨pinResetChannel s.chans.at0, pinResetChannel s.chans.at1, pinResetChannel s.chans.at2,
                pinResetChannel s.chans.at3⟩
      dram := t.dram, dramErrs := t.dramErrs, deviceAddress := straps, resetCause := .resetPin
      draws := t.draws, pending := t.pending } : State).ch c = pinResetChannel (s.ch c) := fun t c => by
    cases c <;> rfl
  refine ⟨_, rfl, resetValues_of_reset (fun c => ⟨_, _, hch _ c⟩) rfl, fun c => ?_, rfl, rfl, cutBurst_pending s,
    fun h => ?_, fun c slot k words hb a ha => cutBurst_outside hb ha⟩
  · rw [hch]; exact pinResetChannel_frame _
  · have hcut := cutBurst_idle h
    exact ⟨show (cutBurst s).dram = s.dram by rw [hcut], show (cutBurst s).dramErrs = s.dramErrs by rw [hcut]⟩

end Sys2Proof.Machine
end

section
/-! SUPPORT. An output frame start on a channel, the parts: the frame that ends (R88), the eligible list (R127), the take of a
centre with its release (R40, R128), REPEAT and DROP (R129, R130), and what the frame that begins finds in the ring. -/

namespace Sys2Proof.Machine

open Sys2Proof

/-! ### The frame that ends (R80, R88, R99) -/

theorem endFrame_none {c : Chan} {s : State} (h : (s.ch c).engine = none) : endFrame c s = s := by
  unfold endFrame; rw [h]

/-- All that an output frame start does to the frame in progress. -/
theorem endFrame_some {c : Chan} {s : State} {f : Frame} (h : (s.ch c).engine = some f) :
    endFrame c s = { s.setCh c { s.ch c with
        engine := none
        stats := PublishedBy f (s.ch c).stats
        cad := { (s.ch c).cad with
          track := if reportsExcess f then fallbackExcess (s.ch c).cad.track else (s.ch c).cad.track } } with
      arbiter := { s.arbiter with burst := ReadOrphaned c false true s.arbiter.burst } } := by
  unfold endFrame
  rw [h]
  dsimp only
  rw [leaveFrame_some h, State.modCh_setCh_arbiter]
  split <;> rfl

theorem reportsExcess_iff (f : Frame) :
    reportsExcess f = true ↔ f.first = true ∧ (∃ p, f.mode = .film p) ∧ f.fallbackLimit < f.fallback := by
  unfold reportsExcess
  cases f.mode <;> simp

/-- What the end of a frame leaves alone, also when there is none to end. -/
theorem endFrame_eq (c : Chan) (s : State) : ∃ stats track burst, endFrame c s =
    { s.setCh c { s.ch c with engine := none, stats := stats, cad := { (s.ch c).cad with track := track } } with
      arbiter := { s.arbiter with burst := burst } } := by
  cases h : (s.ch c).engine with
  | none =>
    refine ⟨(s.ch c).stats, (s.ch c).cad.track, s.arbiter.burst, ?_⟩
    rw [endFrame_none h, ← h]
    exact (State.setCh_ch c s).symm
  | some f => exact ⟨_, _, _, endFrame_some h⟩

theorem endFrame_ch_same (c : Chan) (s : State) : ∃ stats track, (endFrame c s).ch c =
    { s.ch c with engine := none, stats := stats, cad := { (s.ch c).cad with track := track } } := by
  obtain ⟨stats, track, burst, h⟩ := endFrame_eq c s
  rw [h]
  exact ⟨stats, track, State.ch_setCh_same s c _⟩

theorem endFrame_arbiter (c : Chan) (s : State) :
    (endFrame c s).arbiter = { s.arbiter with burst := (endFrame c s).arbiter.burst } := by
  obtain ⟨stats, track, burst, h⟩ := endFrame_eq c s
  rw [h]

/-! ### Entry to STOPPED (R28, R44, R82, R132, R161) -/

/-- All that the end of HALTING does. -/
theorem completeHalt_eq (c : Chan) (tag : Byte) (s : State) : completeHalt c tag s =
    { (endFrame c s).setCh c { (endFrame c s).ch c with
        recv := { (s.ch c).recv with accepted := false, assembly := [], buffer := [] }
        ring := []
        cad := ⟨.search none, [], none, []⟩
        ctl := { (s.ch c).ctl with state := .stopped, lastOutput := none, halt := none }
        rep := { (s.ch c).rep with queue := (s.ch c).rep.queue ++ [.answer tag 5 .done none []] } } with
      arbiter := { s.arbiter with burst := ReadOrphaned c true false (endFrame c s).arbiter.burst } } := by
  obtain ⟨stats, track, hch⟩ := endFrame_ch_same c s
  unfold completeHalt answer
  rw [flushRing_eq, State.modCh_setCh_arbiter, State.modCh_setCh_arbiter, hch, endFrame_arbiter]
  rfl

/-! ### The eligible list (R127) -/

/-- R4, R127: newer than the last output field, where there is one. -/
theorem availableAfter_eq (last : Option Nat) (num : Nat) : availableAfter last num = match last with
    | none => true
    | some n => decide (1 ≤ ((num : Int) - n) % 4294967296) && decide (((num : Int) - n) % 4294967296 ≤ 2147483647) := by
  cases last with
  | none => rfl
  | some n =>
    have hdiff : (((num + (fieldModulus - n % fieldModulus)) % fieldModulus : Nat) : Int) = ((num : Int) - n) % 4294967296 := by
      unfold fieldModulus; omega
    unfold availableAfter newer
    dsimp only
    rw [← hdiff]
    congr 1 <;> rw [decide_eq_decide] <;> omega

/-- R127: the eligible list as a choice among the records that have a successor. -/
theorem eligible_eq (last : Option Nat) (ring : List FieldRecord) : eligible last ring =
    ((ring.zip (ring.drop 1)).filter (fun p => decide (p.1.state = .complete) && decide (p.2.state = .complete) &&
      availableAfter last p.1.num)).map Prod.fst := by
  induction ring using eligible.induct (last := last) with
  | case1 => rfl
  | case2 => rfl
  | case3 x y rest h ih =>
    obtain ⟨hx, hy, hnew⟩ := h
    rw [eligible, if_pos ⟨hx, hy, hnew⟩, ih]
    simp [hx, hy, hnew]
  | case4 x y rest h ih =>
    rw [eligible, if_neg h, ih]
    simp only [List.drop_succ_cons, List.drop_zero, List.zip_cons_cons, List.filter_cons]
    rw [if_neg (by simpa [and_assoc] using h)]

/-- R130: two fewer than the list is long, rounded up to an even number before a FILM record. -/
theorem dropCount_eq {e : List FieldRecord} (h : 3 ≤ e.length) {d : Nat}
    (hround : ((e.length - 2) % 2 = 1 ∧ ∃ q, (e[e.length - 2]?).bind FieldRecord.decision = some (.film q)) →
      d = e.length - 1)
    (hplain : ¬ ((e.length - 2) % 2 = 1 ∧ ∃ q, (e[e.length - 2]?).bind FieldRecord.decision = some (.film q)) →
      d = e.length - 2) : dropCount e = d := by
  have hfilm : ∀ m, isFilm m = true ↔ ∃ q, m = some (.film q) := fun m => by
    rcases m with _ | _ | q <;> simp [isFilm]
  unfold dropCount
  dsimp only
  split
  · next hc =>
    rw [hround ⟨hc.2, (hfilm _).1 hc.1⟩]
    omega
  · next hc => exact (hplain fun ⟨hodd, hq⟩ => hc ⟨(hfilm _).2 hq, hodd⟩).symm

theorem dropCount_lt {e : List FieldRecord} (h : 3 ≤ e.length) : dropCount e < e.length := by
  unfold dropCount
  dsimp only
  split <;> omega

/-- All that scheduling can do: REPEAT, take, or DROP, by the length of the eligible list (R127). -/
theorem schedule_cases (c : Chan) (s : State) {e : List FieldRecord}
    (he : eligible (s.ch c).ctl.lastOutput (s.ch c).ring = e) :
    (e = [] ∧ schedule c s = repeatCentre c s) ∨
    (∃ x, e[0]? = some x ∧ e.length ≤ 2 ∧ schedule c s = (takeCentre c x.num s, true)) ∨
    ∃ x, 3 ≤ e.length ∧ e[dropCount e]? = some x ∧ schedule c s = (dropFields c (dropCount e) x.num s, true) := by
  unfold schedule
  rw [he]
  rcases e with _ | ⟨x, _ | ⟨y, _ | ⟨z, rest⟩⟩⟩
  · exact .inl ⟨rfl, rfl⟩
  · exact .inr (.inl ⟨x, rfl, by simp, rfl⟩)
  · exact .inr (.inl ⟨x, rfl, by simp, rfl⟩)
  · have hlen : 3 ≤ (x :: y :: z :: rest).length := by simp
    have hx := List.getElem?_eq_getElem (dropCount_lt hlen)
    refine .inr (.inr ⟨_, hlen, hx, ?_⟩)
    dsimp only
    rw [hx]

/-! ### The take of a centre (R40, R41, R128) -/

/-- The output uses of a record, one more (R41). -/
def withUse (r : FieldRecord) : FieldRecord := { r with uses := satAdd r.uses 1 }

/-- The ring once record `num` is the centre (R40, R41). -/
def takenRing (num : Nat) (ring : List FieldRecord) : List FieldRecord := modRecord num withUse (releasedRing num ring)

theorem takeCentre_ch_same (c : Chan) (num : Nat) (s : State) : (takeCentre c num s).ch c = { s.ch c with
    ring := takenRing num (s.ch c).ring
    cad := { (s.ch c).cad with images :=
      (s.ch c).cad.images.filter (fun i => (findRecord (releasedRing num (s.ch c).ring) i.num).isSome) }
    ctl := { (s.ch c).ctl with lastOutput := some num } } := by
  unfold takeCentre release
  rw [State.ch_modCh_same, removeFromRing_ch, State.ch_modCh_same, State.ch_modCh_same]
  rfl

/-- An event raised behind a change of its channel that leaves reports and halt record (R161, R170). -/
theorem raise_modCh_ch_same {c : Chan} {s t : State} {f : Channel → Channel} (hrep : (f (t.ch c)).rep = (s.ch c).rep)
    (hhalt : (f (t.ch c)).ctl.halt = (s.ch c).ctl.halt) (hload : t.loader = s.loader) (k : EventKind) (n : Nat) :
    (raise c k n (t.modCh c f)).ch c = { f (t.ch c) with rep := ((raise c k n s).ch c).rep } := by
  have hch : (t.modCh c f).ch c = f (t.ch c) := State.ch_modCh_same t c f
  rw [raise_ch_same, raise_rep_congr (t := t.modCh c f) (by rw [hch, hrep]) (by rw [hch, hhalt]) hload, hch]

theorem dropFields_ch_same (c : Chan) (d num : Nat) (s : State) : (dropFields c d num s).ch c =
    { (takeCentre c num s).ch c with
      stats := { (s.ch c).stats with fieldsDropped := min 65535 ((s.ch c).stats.fieldsDropped + d) }
      rep := ((raise c .slipDrop num s).ch c).rep } := by
  have hch := takeCentre_ch_same c num s
  have hload : (takeCentre c num s).loader = s.loader := (keepsDevice_takeCentre c num s).loader
  unfold dropFields
  rw [raise_modCh_ch_same (by rw [hch]) (by rw [hch]) hload, hch]
  rfl

theorem repeatCentre_none {c : Chan} {s : State} (h : pinnedCentre (s.ch c) = none) : repeatCentre c s = (s, false) := by
  unfold repeatCentre; rw [h]

/-- REPEAT on a pinned centre (R41, R129). -/
theorem repeatCentre_some {c : Chan} {s : State} {r : FieldRecord} (h : pinnedCentre (s.ch c) = some r) :
    (repeatCentre c s).2 = true ∧ (repeatCentre c s).1.ch c = { s.ch c with
      ring := modRecord r.num withUse (s.ch c).ring
      stats := { (s.ch c).stats with fieldsRepeated := min 65535 ((s.ch c).stats.fieldsRepeated + 1) }
      rep := ((raise c .slipRepeat r.num s).ch c).rep } := by
  unfold repeatCentre
  rw [h]
  refine ⟨rfl, ?_⟩
  dsimp only
  rw [raise_modCh_ch_same (s := s) rfl rfl rfl]
  rfl

/-- Before the predecessor of the centre COMPLETE records are released, and the others stay unpinned (R40). -/
theorem releasedFrom_older {place k : Nat} {front ring : List FieldRecord} (hk : k + front.length + 1 = place) :
    releasedFrom place k (front ++ ring) = (front.filter (fun z => decide (z.state ≠ .complete))).map (withPin false) ++
      releasedFrom place (k + front.length) ring := by
  induction front generalizing k with
  | nil => rfl
  | cons r front ih =>
    simp only [List.length_cons] at hk ⊢
    have hn : ¬ (k = place ∨ k + 1 = place ∨ k = place + 1) := by omega
    have hlater := ih (k := k + 1) (by omega)
    rw [show k + 1 + front.length = k + (front.length + 1) by omega] at hlater
    rw [List.cons_append, releasedFrom_cons, hlater, List.filter_cons]
    by_cases hr : r.state = .complete
    · rw [if_pos ⟨by omega, hr⟩, if_neg (by simpa using hr)]
    · rw [if_neg (fun h => hr h.2), if_pos (by simpa using hr), pinAt, decide_eq_false hn]
      rfl

/-- R40: the ring after release for a centre that has a successor. -/
theorem releasedRing_split {pre post : List FieldRecord} {x y : FieldRecord} (hpre : ∀ r ∈ pre, r.num ≠ x.num) :
    releasedRing x.num (pre ++ x :: y :: post) =
      (pre.dropLast.filter (fun z => decide (z.state ≠ .complete))).map (withPin false) ++
      pre.getLast?.toList.map (withPin true) ++ withPin true x :: withPin true y :: post.map (withPin false) := by
  rw [releasedRing_eq, ringPlace_append_cons rfl hpre]
  rcases List.eq_nil_or_concat' pre with rfl | ⟨older, q, rfl⟩
  · exact releasedFrom_centre 0 x y post
  · rw [List.append_assoc, releasedFrom_older (by simp), List.length_append, List.length_singleton, Nat.zero_add,
      List.singleton_append, releasedFrom_predecessor, releasedFrom_centre]
    simp

theorem modRecord_of_forall_ne {num : Nat} {f : FieldRecord → FieldRecord} {ring : List FieldRecord}
    (h : ∀ r ∈ ring, r.num ≠ num) : modRecord num f ring = ring :=
  (List.map_congr_left fun r hr => if_neg (h r hr)).trans (List.map_id ring)

/-- A record whose number no other record carries. -/
theorem modRecord_split {f : FieldRecord → FieldRecord} {front back : List FieldRecord} {x : FieldRecord}
    (hfront : ∀ r ∈ front, r.num ≠ x.num) (hback : ∀ r ∈ back, r.num ≠ x.num) :
    modRecord x.num f (front ++ x :: back) = front ++ f x :: back := by
  have hsplit : modRecord x.num f (front ++ x :: back) =
      modRecord x.num f front ++ f x :: modRecord x.num f back := by simp [modRecord]
  rw [hsplit, modRecord_of_forall_ne hfront, modRecord_of_forall_ne hback]

/-- R40, R41: the ring of a new centre that has a successor, in a ring of distinct numbers. -/
theorem takenRing_split {ring pre post : List FieldRecord} {x y : FieldRecord} (hring : ring = pre ++ x :: y :: post)
    (h : (ring.map FieldRecord.num).Nodup) :
    takenRing x.num ring =
      (pre.dropLast.filter (fun z => decide (z.state ≠ .complete))).map (withPin false) ++
      pre.getLast?.toList.map (withPin true) ++
      withUse (withPin true x) :: withPin true y :: post.map (withPin false) := by
  rw [hring, List.map_append, List.nodup_append, List.map_cons, List.nodup_cons] at h
  obtain ⟨-, ⟨hlater, -⟩, hearlier⟩ := h
  have hpre : ∀ r ∈ pre, r.num ≠ x.num := fun r hr => hearlier _ (List.mem_map_of_mem hr) _ List.mem_cons_self
  have hpost : ∀ r ∈ y :: post, r.num ≠ x.num := fun r hr e => hlater (e ▸ List.mem_map_of_mem hr)
  unfold takenRing
  rw [hring, releasedRing_split hpre]
  refine modRecord_split (x := withPin true x) (fun r hr => ?_) (fun r hr => ?_)
  · rcases List.mem_append.1 hr with hr | hr <;> obtain ⟨q, hq, rfl⟩ := List.mem_map.1 hr
    · exact hpre q (List.dropLast_subset pre (List.mem_filter.1 hq).1)
    · exact hpre q (List.mem_of_getLast? (Option.mem_toList.1 hq))
  · rcases List.mem_cons.1 hr with rfl | hr
    · exact hpost y List.mem_cons_self
    · obtain ⟨q, hq, rfl⟩ := List.mem_map.1 hr
      exact hpost q (List.mem_cons_of_mem y hq)

/-! ### A centre for the frame that begins (R39, R41, R84) -/

/-- What the engine finds in the ring when its frame carries picture: a pinned centre, which has served one frame more. -/
structure CentreReady (old new : Channel) : Prop where
  pinned : ∃ r, pinnedCentre new = some r
  uses   : ∀ z ∈ new.ring, new.ctl.lastOutput = some z.num →
             ∃ q ∈ old.ring, q.num = z.num ∧ z.uses = min 65535 (q.uses + 1)

/-- The pinned centre is the first record of its number, and pinned. -/
theorem pinnedCentre_eq_some {ch : Channel} {r : FieldRecord} : pinnedCentre ch = some r ↔
    ch.ctl.lastOutput = some r.num ∧ ch.ring[ringPlace r.num ch.ring]? = some r ∧ r.pinned = true := by
  have hat : ∀ place, pinnedAt ch.ring place = some r ↔ ch.ring[place]? = some r ∧ r.pinned = true := fun place => by
    unfold pinnedAt
    cases ch.ring[place]? with
    | none => simp
    | some q =>
      rw [Option.bind_some, Option.ite_none_right_eq_some, Option.some.injEq]
      exact ⟨fun ⟨hp, e⟩ => ⟨e, e ▸ hp⟩, fun ⟨e, hp⟩ => ⟨e ▸ hp, e⟩⟩
  unfold pinnedCentre
  cases ch.ctl.lastOutput with
  | none => simp
  | some num =>
    rw [Option.bind_some, hat, Option.some.injEq]
    refine ⟨fun ⟨hr, hp⟩ => ?_, fun ⟨hn, hr⟩ => hn ▸ hr⟩
    obtain ⟨hl, e⟩ := List.getElem?_eq_some_iff.1 hr
    have hnum : r.num = num := by
      have hfound := List.findIdx_getElem (p := fun q : FieldRecord => q.num == num) (xs := ch.ring) (w := hl)
      have hplace : ch.ring[ch.ring.findIdx (fun q => q.num == num)] = r := e
      simpa [hplace] using hfound
    exact ⟨hnum.symm, hnum ▸ hr, hp⟩

/-- A change of records that keeps their numbers keeps every record's place. -/
theorem ringPlace_modRecord {f : FieldRecord → FieldRecord} (hf : ∀ r, (f r).num = r.num) (num n : Nat)
    (ring : List FieldRecord) : ringPlace n (modRecord num f ring) = ringPlace n ring := by
  unfold ringPlace modRecord
  rw [List.findIdx_map]
  congr 1
  funext r
  dsimp only [Function.comp]
  split <;> simp [hf]

/-- A use counted on a pinned record that is the first of its number. -/
theorem pinnedCentre_modRecord_withUse {ch : Channel} {ring : List FieldRecord} {r : FieldRecord}
    (hring : ch.ring = modRecord r.num withUse ring) (hlast : ch.ctl.lastOutput = some r.num)
    (hr : ring[ringPlace r.num ring]? = some r) (hp : r.pinned = true) : pinnedCentre ch = some (withUse r) := by
  refine pinnedCentre_eq_some.2 ⟨hlast, ?_, hp⟩
  show ch.ring[ringPlace r.num ch.ring]? = some (withUse r)
  rw [hring, ringPlace_modRecord (f := withUse) fun _ => rfl]
  unfold modRecord
  rw [List.getElem?_map, hr, Option.map_some, if_pos rfl]

/-- The pinned centre with one use more serves the next frame too (R41). -/
theorem centreReady_again {old new : Channel} {r : FieldRecord} (h : pinnedCentre old = some r)
    (hring : new.ring = modRecord r.num withUse old.ring) (hlast : new.ctl.lastOutput = old.ctl.lastOutput) :
    CentreReady old new := by
  obtain ⟨hl, hr, hp⟩ := pinnedCentre_eq_some.1 h
  refine ⟨⟨_, pinnedCentre_modRecord_withUse hring (hlast.trans hl) hr hp⟩, fun z hz hnum => ?_⟩
  rw [hring] at hz
  obtain ⟨q, hq, rfl⟩ := List.mem_map.1 hz
  rw [hlast, hl, Option.some.injEq] at hnum
  split at hnum
  · next hc => rw [if_pos hc]; exact ⟨q, hq, rfl, rfl⟩
  · next hc => exact absurd hnum.symm hc

/-- Release keeps the first record of the new centre's number, and pins it (R40). -/
theorem releasedRing_centre {num : Nat} {ring : List FieldRecord} (h : ∃ r ∈ ring, r.num = num) :
    ∃ r, (releasedRing num ring)[ringPlace num (releasedRing num ring)]? = some r ∧ r.num = num ∧ r.pinned = true := by
  obtain ⟨front, r, back, hsplit, hfront, hr⟩ : ∃ front r back, ring = front ++ r :: back ∧
      (∀ z ∈ front, z.num ≠ num) ∧ r.num = num := by
    obtain ⟨r, hr⟩ := Option.isSome_iff_exists.1 (List.find?_isSome (p := fun z : FieldRecord => z.num == num) |>.2
      (by simpa using h))
    obtain ⟨hn, front, back, e, hf⟩ := List.find?_eq_some_iff_append.1 hr
    exact ⟨front, r, back, e, by simpa using hf, by simpa using hn⟩
  obtain ⟨older, hold, hrest⟩ : ∃ older, (∀ z ∈ older, z.num ≠ num) ∧
      releasedRing num ring = older ++ releasedFrom front.length front.length (r :: back) := by
    rw [hsplit, releasedRing_eq, ringPlace_append_cons hr hfront]
    rcases List.eq_nil_or_concat' front with rfl | ⟨older, q, rfl⟩
    · exact ⟨[], by simp, rfl⟩
    · refine ⟨(older.filter (fun z => decide (z.state ≠ .complete))).map (withPin false) ++ [withPin true q],
        fun z hz => ?_, ?_⟩
      · rcases List.mem_append.1 hz with hz | hz
        · obtain ⟨w, hw, rfl⟩ := List.mem_map.1 hz
          exact hfront w (by simp [(List.mem_filter.1 hw).1])
        · rw [List.mem_singleton.1 hz]; exact hfront q (by simp)
      · rw [List.append_assoc, releasedFrom_older (by simp), List.length_append, List.length_singleton, Nat.zero_add,
          List.singleton_append, releasedFrom_predecessor, List.append_assoc]
        rfl
  have hpin : releasedFrom front.length front.length (r :: back) =
      withPin true r :: releasedFrom front.length (front.length + 1) back := by
    rw [releasedFrom_cons, if_neg (by omega)]
    simp [pinAt]
  refine ⟨withPin true r, ?_, hr, rfl⟩
  rw [hrest, hpin, ringPlace_append_cons (x := withPin true r) hr hold]
  simp

/-- A new centre serves the next frame (R40, R41, R128). -/
theorem centreReady_taken {old new : Channel} {num : Nat} (h : ∃ r ∈ old.ring, r.num = num)
    (hring : new.ring = takenRing num old.ring) (hlast : new.ctl.lastOutput = some num) : CentreReady old new := by
  obtain ⟨r, hr, rfl, hp⟩ := releasedRing_centre h
  refine ⟨⟨_, pinnedCentre_modRecord_withUse hring hlast hr hp⟩, fun z hz hnum => ?_⟩
  rw [hring] at hz
  obtain ⟨y, hy, rfl⟩ := List.mem_map.1 hz
  obtain ⟨q, hq, b, rfl⟩ := mem_releasedRing hy
  rw [hlast, Option.some.injEq] at hnum
  split at hnum
  · next hc => rw [if_pos hc]; exact ⟨q, hq, rfl, rfl⟩
  · next hc => exact absurd hnum.symm hc

theorem schedule_ready {c : Chan} {s : State} (h : (schedule c s).2 = true) :
    CentreReady (s.ch c) ((schedule c s).1.ch c) := by
  have hmem : ∀ {i : Nat} {x : FieldRecord}, (eligible (s.ch c).ctl.lastOutput (s.ch c).ring)[i]? = some x →
      ∃ r ∈ (s.ch c).ring, r.num = x.num := fun {i x} hx => by
    obtain ⟨front, y, back, e, -, -⟩ := mem_eligible (List.mem_of_getElem? hx)
    exact ⟨x, by simp [e], rfl⟩
  rcases schedule_cases c s rfl with ⟨-, e⟩ | ⟨x, hx, -, e⟩ | ⟨x, -, hx, e⟩ <;> rw [e] at h ⊢
  · cases hp : pinnedCentre (s.ch c) with
    | none => rw [repeatCentre_none hp] at h; cases h
    | some r =>
      rw [(repeatCentre_some hp).2]
      exact centreReady_again hp rfl rfl
  · dsimp only
    rw [takeCentre_ch_same]
    exact centreReady_taken (hmem hx) rfl rfl
  · dsimp only
    rw [dropFields_ch_same, takeCentre_ch_same]
    exact centreReady_taken (hmem hx) rfl rfl

theorem lossActionWork_ready {c : Chan} {s : State} (h : (lossActionWork c s).2 = true) :
    CentreReady (s.ch c) ((lossActionWork c s).1.ch c) := by
  unfold lossActionWork at h ⊢
  split at h
  · next r _ hp =>
    rw [State.ch_modCh_same]
    exact centreReady_again hp rfl rfl
  · cases h
  · cases h

theorem startingWork_ready {c : Chan} {enter : ChanState} {s : State} (h : (startingWork c enter s).2 = true) :
    CentreReady (s.ch c) ((startingWork c enter s).1.ch c) := by
  unfold startingWork at h ⊢
  split at h
  · next hc =>
    have hready := schedule_ready h
    rw [State.ch_modCh_same] at hready
    rw [if_pos hc]
    exact ⟨hready.pinned, hready.uses⟩
  · cases h

/-- A frame that carries picture has a pinned centre that has served one frame more (R41, R84). -/
theorem chooseFrame_ready {c : Chan} {n : Nat} {s : State} (h : (chooseFrame c n s).2 = true) :
    CentreReady (s.ch c) ((chooseFrame c n s).1.ch c) := by
  unfold chooseFrame haltingWork originWork at h ⊢
  split at h
  · cases h
  · exact startingWork_ready h
  · exact schedule_ready h
  · split at h
    · cases h
    · split at h
      · cases h
      · next hentry =>
        rw [if_neg hentry]
        split at h
        · exact schedule_ready h
        · exact startingWork_ready h
        · exact lossActionWork_ready h
        · cases h
        · cases h
  · exact lossActionWork_ready h

end Sys2Proof.Machine
end

section
/-! SUPPORT. An output frame start on a channel, the frame that begins: its sources and parameters (R84), and what the engine
and the arbiter do at once for a frame of which no line is delivered yet (R51, R85, R87). -/

namespace Sys2Proof.Machine

open Sys2Proof

/-! ### The frame latched (R84) -/

/-- A record of the ring is a source where it is pinned. -/
theorem latchedSource_pinnedAt (ring : List FieldRecord) (place : Nat) :
    LatchedSource ring[place]? ((pinnedAt ring place).map sourceOf) := by
  unfold pinnedAt
  cases hr : ring[place]? with
  | none => exact ⟨fun _ => rfl, fun _ h => by cases h⟩
  | some r =>
    refine ⟨fun h => by simp [h r rfl], fun q e hp => ?_⟩
    obtain rfl := Option.some.inj e
    exact ⟨sourceOf r, by simp [hp], rfl, rfl, fun p h => by simp [sourceOf, h]⟩

/-- The frame on the pinned centre is latched as R84 says. -/
theorem newFrame_latched {t : Tables} {n num : Nat} {ch : Channel} {f : Frame} (hlast : ch.ctl.lastOutput = some num)
    (h : newFrame t n ch num = some f) : FrameLatched t n ch f := by
  unfold newFrame at h
  obtain ⟨r, hr, rfl⟩ := Option.map_eq_some_iff.1 h
  have hcentre : pinnedCentre ch = some r := by unfold pinnedCentre; rw [hlast]; exact hr
  obtain ⟨hl, hplace, hp⟩ := pinnedCentre_eq_some.1 hcentre
  obtain rfl : num = r.num := Option.some.inj (hlast.symm.trans hl)
  have hsource := latchedSource_pinnedAt ch.ring (ringPlace r.num ch.ring)
  rw [hr, hplace] at hsource
  have hpred : LatchedSource (if ringPlace r.num ch.ring = 0 then none else ch.ring[ringPlace r.num ch.ring - 1]?)
      ((if ringPlace r.num ch.ring = 0 then none else pinnedAt ch.ring (ringPlace r.num ch.ring - 1)).map sourceOf) := by
    split
    · exact ⟨fun _ => rfl, fun _ h => by cases h⟩
    · exact latchedSource_pinnedAt _ _
  refine ⟨ringPlace r.num ch.ring, r, hplace, hp, hl, fun x hx => ?_, hsource, hpred, latchedSource_pinnedAt _ _,
    fun m hm => by simp [hm], by simp, rfl, rfl, rfl, rfl, rfl, rfl, rfl, rfl, rfl, rfl⟩
  obtain ⟨i, hi, rfl⟩ := List.mem_take_iff_getElem.1 hx
  have hfirst := List.not_of_lt_findIdx (p := fun q : FieldRecord => q.num == r.num) (xs := ch.ring) (i := i)
    (Nat.lt_of_lt_of_le hi (Nat.min_le_left _ _))
  simpa using hfirst

/-- Of a frame just latched nothing is delivered. -/
theorem frameLatched_delivered {t : Tables} {n : Nat} {ch : Channel} {f : Frame} (h : FrameLatched t n ch f) :
    f.delivered = false := by
  obtain ⟨-, -, -, -, -, -, -, -, -, -, -, -, -, -, -, -, -, -, -, -, hdelivered⟩ := h
  exact hdelivered

/-- The channel as the engine and the Scaler begin their frame (R84, R105). -/
def begunChannel (t : Tables) (family : Family) (n : Nat) (picture : Bool) (ch : Channel) : Channel :=
  latchScaler t family n (beginFrame t n picture ch)

/-- A frame that the engine begins is latched as R84 says. -/
theorem begunChannel_latched {t : Tables} {family : Family} {n : Nat} {picture : Bool} {ch : Channel} {f : Frame}
    (h : (begunChannel t family n picture ch).engine = some f) : FrameLatched t n ch f := by
  have hengine : (if picture then ch.ctl.lastOutput.bind (newFrame t n ch) else none) = some f := h
  cases picture with
  | false => cases hengine
  | true =>
    obtain ⟨num, hlast, hnew⟩ := Option.bind_eq_some_iff.1 hengine
    exact newFrame_latched hlast hnew

/-- With a pinned centre for every picture, the engine is idle exactly when the frame carries none. -/
theorem begunChannel_engine_none_iff (t : Tables) (family : Family) (n : Nat) {picture : Bool} {ch : Channel}
    (h : picture = true → ∃ r, pinnedCentre ch = some r) :
    (begunChannel t family n picture ch).engine = none ↔ picture = false := by
  cases picture with
  | false => exact ⟨fun _ => rfl, fun _ => rfl⟩
  | true =>
    obtain ⟨r, hr⟩ := h rfl
    obtain ⟨hl, -, -⟩ := pinnedCentre_eq_some.1 hr
    unfold pinnedCentre at hr
    rw [hl, Option.bind_some] at hr
    have hengine : (begunChannel t family n true ch).engine = newFrame t n ch r.num := by
      show ch.ctl.lastOutput.bind _ = _
      rw [hl, Option.bind_some]
    unfold newFrame at hengine
    simp [hengine, hr]

/-- R105: the Scaler's frame is a picture exactly with a frame of the engine. -/
theorem begunChannel_scaler (t : Tables) (family : Family) (n : Nat) (picture : Bool) (ch : Channel) :
    ∃ x, (begunChannel t family n picture ch).scaler = some x ∧
      (x.kind = .picture ↔ (begunChannel t family n picture ch).engine ≠ none) := by
  refine ⟨_, rfl, ?_⟩
  show (if (begunChannel t family n picture ch).engine.isSome = true then FrameKind.picture else .black) = .picture ↔ _
  cases (begunChannel t family n picture ch).engine <;> simp

/-! ### The frame's first turns (R51, R85, R87) -/

/-- The frame has gone on in its read plan alone: no row built, nothing delivered. -/
def ReadsOn (f g : Frame) : Prop := g = { f with turn := g.turn, read := g.read, lines := g.lines }

theorem ReadsOn.latched {t : Tables} {n : Nat} {ch : Channel} {f g : Frame} (h : ReadsOn f g)
    (hf : FrameLatched t n ch f) : FrameLatched t n ch g := by
  rw [h]
  exact hf

/-- What turns of the read plan and grants move of a channel: the line buffer's oldest lines with the counts of stored lines
and the images, and the engine's place in its plan. -/
structure BegunMoves (old new : Channel) : Prop where
  eq     : new = { old with
             recv := { old.recv with buffer := new.recv.buffer }
             ring := new.ring, cad := { old.cad with images := new.cad.images }, engine := new.engine }
  buffer : old.recv.buffer = [] → new.recv.buffer = []
  images : new.cad.images.map Image.num = old.cad.images.map Image.num
  ring   : new.ring.map (fun r => (r.num, r.pinned, r.uses)) = old.ring.map (fun r => (r.num, r.pinned, r.uses))
  engine : Option.Rel ReadsOn old.engine new.engine

theorem readsOn_refl : ∀ e : Option Frame, Option.Rel ReadsOn e e
  | none => .none
  | some _ => .some rfl

theorem readsOn_trans {e f g : Option Frame} (h : Option.Rel ReadsOn e f) (k : Option.Rel ReadsOn f g) :
    Option.Rel ReadsOn e g := by
  cases h with
  | none => exact k
  | some h =>
    cases k with
    | some k => exact .some (by unfold ReadsOn at *; rw [k, h])

theorem BegunMoves.refl (ch : Channel) : BegunMoves ch ch := ⟨rfl, id, rfl, rfl, readsOn_refl _⟩

theorem BegunMoves.trans {x y z : Channel} (h : BegunMoves x y) (k : BegunMoves y z) : BegunMoves x z :=
  ⟨by rw [k.eq, h.eq], k.buffer ∘ h.buffer, k.images.trans h.images, k.ring.trans h.ring, readsOn_trans h.engine k.engine⟩

/-- A frame that reads on is the frame begun. -/
theorem BegunMoves.engine_some {old new : Channel} {g : Frame} (h : BegunMoves old new) (hg : new.engine = some g) :
    ∃ f, old.engine = some f ∧ ReadsOn f g := by
  have hrel := h.engine
  rw [hg] at hrel
  generalize old.engine = e at hrel ⊢
  cases hrel with
  | some hr => exact ⟨_, rfl, hr⟩

theorem BegunMoves.engine_none_iff {old new : Channel} (h : BegunMoves old new) :
    new.engine = none ↔ old.engine = none := by
  have hrel := h.engine
  generalize old.engine = e at hrel ⊢
  generalize new.engine = g at hrel ⊢
  cases hrel <;> simp

theorem begunMoves_grantWriteTo (ch : Channel) : BegunMoves ch (grantWriteTo ch) := by
  unfold grantWriteTo
  split
  · next l rest r hb _ =>
    refine ⟨rfl, fun h => by simp [hb] at h, ?_, ?_, readsOn_refl _⟩
    · refine (List.map_map ..).trans (List.map_congr_left fun i _ => ?_)
      dsimp only [Function.comp]
      unfold copyToImage
      split <;> rfl
    · refine (List.map_map ..).trans (List.map_congr_left fun x _ => ?_)
      dsimp only [Function.comp]
      split <;> rfl
  · exact .refl ch

theorem begunMoves_grantReadTo (ch : Channel) : BegunMoves ch (grantReadTo ch) := by
  refine ⟨rfl, id, rfl, rfl, ?_⟩
  unfold grantReadTo
  cases ch.engine with
  | none => exact .none
  | some f => exact .some rfl

theorem begunMoves_modCh {g : Channel → Channel} (hg : ∀ ch, BegunMoves ch (g ch)) (s : State) (d c : Chan) :
    BegunMoves (s.ch c) ((s.modCh d g).ch c) := by
  by_cases h : c = d
  · subst h; rw [State.ch_modCh_same]; exact hg _
  · rw [State.ch_modCh_ne _ h]; exact .refl _

theorem begunMoves_arbitrate (s : State) (c : Chan) : BegunMoves (s.ch c) ((arbitrate s).ch c) := by
  rcases arbitrate_cases s with h | ⟨d, slot, l, -, -, h⟩ | ⟨d, src, role, k, -, -, -, h⟩ <;> rw [h]
  · exact .refl _
  · exact begunMoves_modCh begunMoves_grantWriteTo s d c
  · exact begunMoves_modCh begunMoves_grantReadTo s d c

theorem begunMoves_turnNext {c : Chan} {s t : State} (h : turnNext c s = some t) : BegunMoves (s.ch c) (t.ch c) := by
  obtain ⟨f, g, hf, hg, rfl⟩ := turnNext_cases h
  have hreads : ReadsOn f g := by
    obtain ⟨-, -, ⟨rfl, -⟩ | ⟨rfl, -, -⟩⟩ := nextTurn_cases hg <;> rfl
  rw [State.ch_modCh_same]
  exact ⟨rfl, id, rfl, rfl, hf ▸ .some hreads⟩

/-- While nothing of the frame is delivered, the engine builds no row: it takes turns, and the arbiter grants. -/
theorem begunMoves_pumpEngine {c : Chan} {s : State} (h : ∀ f, (s.ch c).engine = some f → f.delivered = false) :
    BegunMoves (s.ch c) ((pumpEngine c s).ch c) := by
  refine pumpEngine_keeps (P := fun t => BegunMoves (s.ch c) (t.ch c)) (fun t u ht hb => ?_)
    (fun t u ht hu => ht.trans (begunMoves_turnNext hu)) (fun t ht => ht.trans (begunMoves_arbitrate t c)) (.refl _)
  obtain ⟨f, sc, r, b, hf, -, -, -, hdelivered, -⟩ := buildNext_cases hb
  obtain ⟨f₀, hf₀, hreads⟩ := ht.engine_some hf
  have hnone : f.delivered = false := by rw [hreads]; exact h f₀ hf₀
  rw [hnone] at hdelivered
  cases hdelivered

/-! ### The whole work of a channel (R120, R132, R138) -/

/-- Frame values stored at an earlier start come into force, and touch nothing else (R138). -/
theorem frameValuesInForce_eq (n : Nat) (ch : Channel) : frameValuesInForce n ch =
    { ch with ctl := match ch.ctl.pendingFrame with
      | some (p, m) => if m < n then { ch.ctl with frame := p, pendingFrame := none } else ch.ctl
      | none => ch.ctl } := by
  unfold frameValuesInForce
  cases ch.ctl.pendingFrame with
  | none => rfl
  | some x =>
    obtain ⟨p, m⟩ := x
    dsimp only
    split <;> rfl

/-- R120: the work of a channel is the choice of its frame, the frame begun, and the engine's first turns. -/
theorem controlWork_eq {c : Chan} {n : Nat} {s : State} {chosen : State × Bool}
    (hwork : (s.ch c).haltDone = false → chosen = chooseFrame c n ((endFrame c s).modCh c (frameValuesInForce n)))
    (hdone : (s.ch c).haltDone = true → chosen = (endFrame c s, false)) :
    controlWork c n s = pumpEngine c (chosen.1.modCh c (begunChannel s.tables s.rtu.family n chosen.2)) := by
  obtain ⟨stats, track, hch⟩ := endFrame_ch_same c s
  have hhalt : ((endFrame c s).ch c).haltDone = (s.ch c).haltDone := by rw [hch]
  unfold controlWork
  dsimp only
  rw [hhalt]
  cases h : (s.ch c).haltDone with
  | false => rw [hwork h]; rfl
  | true => rw [hdone h]; rfl

/-- R120: after its work the channel is the one that began its frame, but for first turns and grants. -/
theorem begunMoves_controlWork {c : Chan} {n : Nat} {s : State} {chosen : State × Bool}
    (hwork : (s.ch c).haltDone = false → chosen = chooseFrame c n ((endFrame c s).modCh c (frameValuesInForce n)))
    (hdone : (s.ch c).haltDone = true → chosen = (endFrame c s, false)) :
    BegunMoves (begunChannel s.tables s.rtu.family n chosen.2 (chosen.1.ch c)) ((controlWork c n s).ch c) := by
  rw [controlWork_eq hwork hdone, ← State.ch_modCh_same chosen.1 c (begunChannel s.tables s.rtu.family n chosen.2)]
  refine begunMoves_pumpEngine fun f hf => ?_
  rw [State.ch_modCh_same] at hf
  exact frameLatched_delivered (begunChannel_latched hf)

/-- A picture chosen at the start has a ready centre; frame values in force have no part in it (R138). -/
theorem chosen_ready {c : Chan} {n : Nat} {s : State} {chosen : State × Bool}
    (hwork : (s.ch c).haltDone = false → chosen = chooseFrame c n ((endFrame c s).modCh c (frameValuesInForce n)))
    (hdone : (s.ch c).haltDone = true → chosen = (endFrame c s, false)) (h : chosen.2 = true) :
    CentreReady (s.ch c) (chosen.1.ch c) := by
  cases hd : (s.ch c).haltDone with
  | true => rw [hdone hd] at h; cases h
  | false =>
    obtain ⟨stats, track, hch⟩ := endFrame_ch_same c s
    rw [hwork hd] at h ⊢
    obtain ⟨hpinned, huses⟩ := chooseFrame_ready h
    rw [State.ch_modCh_same, frameValuesInForce_eq, hch] at huses
    exact ⟨hpinned, huses⟩

/-- R40, R41: the frame begun on a ready centre is a first reconstruction exactly when the centre had served none. -/
theorem frameLatched_first_iff {t : Tables} {n : Nat} {old new : Channel} {f : Frame} (hf : FrameLatched t n new f)
    (hready : CentreReady old new) (hnodup : (old.ring.map FieldRecord.num).Nodup) {r : FieldRecord} (hr : r ∈ old.ring)
    (hnum : r.num = f.centre.num) : f.first = true ↔ r.uses = 0 := by
  obtain ⟨p, z, hz, hpin, hlast, -, ⟨-, hsource⟩, -, -, -, hfirst, -⟩ := hf
  obtain ⟨y, hy, hynum, -, -⟩ := hsource z rfl hpin
  obtain ⟨q, hq, hqnum, huses⟩ := hready.uses z (List.mem_of_getElem? hz) hlast
  have hsame : r.num = q.num := by
    rw [hnum, Option.some.inj hy, hynum, hqnum]
  obtain rfl := List.inj_on_of_nodup_map hnodup hr hq hsame
  rw [hfirst, huses]
  omega

end Sys2Proof.Machine
end

section
/-! SUPPORT. The clauses of ScheduleFollowsTheEligibleList, from the parts of an output frame start. -/

namespace Sys2Proof.Machine

open Sys2Proof

/-! ### What each channel state does -/

theorem lossActionWork_black {c : Chan} {s : State}
    (h : (s.ch c).ctl.frame.lossAction = .black ∨ pinnedCentre (s.ch c) = none) : lossActionWork c s = (s, false) := by
  unfold lossActionWork
  split
  · next hhold hp =>
    rcases h with h | h
    · rw [hhold] at h; cases h
    · rw [hp] at h; cases h
  · rfl
  · rfl

theorem lossActionWork_hold {c : Chan} {s : State} {r : FieldRecord} (h : (s.ch c).ctl.frame.lossAction = .hold)
    (hp : pinnedCentre (s.ch c) = some r) : lossActionWork c s = (s.modCh c (advanceUses r.num), true) := by
  unfold lossActionWork; rw [h, hp]

theorem startingWork_few {c : Chan} {s : State} (enter : ChanState) (h : completeCount (s.ch c).ring < 2) :
    startingWork c enter s = (s, false) := if_neg (Nat.not_le.2 h)

theorem startingWork_two {c : Chan} {s : State} (enter : ChanState) (h : 2 ≤ completeCount (s.ch c).ring) :
    startingWork c enter s =
      schedule c (s.setCh c { s.ch c with ctl := { (s.ch c).ctl with state := enter } }) := if_pos h

/-- HALTING whose work STARTING would do stays HALTING (R132). -/
theorem startingWork_stay {c : Chan} {s : State} {enter : ChanState} (hstate : (s.ch c).ctl.state = enter)
    (h : 2 ≤ completeCount (s.ch c).ring) : startingWork c enter s = schedule c s := by
  rw [startingWork_two enter h, ← hstate]
  exact congrArg (schedule c) (State.setCh_ch c s)

theorem chooseFrame_stopped {c : Chan} {n : Nat} {s : State} (h : (s.ch c).ctl.state = .stopped) :
    chooseFrame c n s = (s, false) := by unfold chooseFrame; rw [h]

theorem chooseFrame_running {c : Chan} {n : Nat} {s : State} (h : (s.ch c).ctl.state = .running) :
    chooseFrame c n s = schedule c s := by unfold chooseFrame; rw [h]

theorem chooseFrame_starting {c : Chan} {n : Nat} {s : State} (h : (s.ch c).ctl.state = .starting) :
    chooseFrame c n s = startingWork c .running s := by unfold chooseFrame; rw [h]

theorem chooseFrame_lost {c : Chan} {n : Nat} {s : State} (h : (s.ch c).ctl.state = .lost) :
    chooseFrame c n s = lossActionWork c s := by unfold chooseFrame; rw [h]

theorem chooseFrame_halting {c : Chan} {n : Nat} {s : State} {r : HaltRecord} (h : (s.ch c).ctl.state = .halting)
    (hr : (s.ch c).ctl.halt = some r) : chooseFrame c n s =
      if r.entry < n then (completeHalt c r.tag s, false) else originWork c r.origin s := by
  unfold chooseFrame haltingWork
  rw [h, hr]

/-- The entry at this start does the work of the state that HALT was taken in (R132). -/
theorem chooseFrame_halting_now {c : Chan} {n : Nat} {s : State} {r : HaltRecord} {origin : ChanState}
    (h : (s.ch c).ctl.state = .halting) (hr : (s.ch c).ctl.halt = some r) (hn : n ≤ r.entry)
    (ho : r.origin = origin) : chooseFrame c n s = originWork c origin s := by
  rw [chooseFrame_halting h hr, if_neg (Nat.not_lt.2 hn), ho]

/-! ### The obligation -/

/-- Settles O49: the frame that ends, the schedule by the length of the eligible list, the work of each channel state, and
the frame latched on the centre chosen. -/
theorem scheduleFollowsTheEligibleList : Obligations.ScheduleFollowsTheEligibleList := by
  refine ⟨fun c s => ⟨endFrame_none, fun f excess hf hexcess => ?_⟩, fun c s e d he hround hplain => ?_,
    fun c n s => ⟨chooseFrame_stopped, chooseFrame_running, fun h => ?_, fun h => ?_, fun r h hr => ?_⟩,
    fun news c n s old ctl chosen hold hctl hwork hdone => ?_⟩
  · -- the frame that ends (R80, R88, R99)
    have hreport : reportsExcess f = excess := Bool.eq_iff_iff.2 ((reportsExcess_iff f).trans hexcess.symm)
    rw [endFrame_some hf, hreport]
    cases excess <;> cases (s.ch c).cad.track <;> rfl
  · -- REPEAT, take and DROP by the length of the eligible list (R127 to R130)
    have heligible : eligible (s.ch c).ctl.lastOutput (s.ch c).ring = e := by
      rw [he, eligible_eq]
      refine congrArg (List.map Prod.fst) (List.filter_congr fun p _ => ?_)
      exact congrArg (Bool.and _) (availableAfter_eq _ _)
    rcases schedule_cases c s heligible with ⟨rfl, hs⟩ | ⟨x, hx, hlen, hs⟩ | ⟨x, hlen, hx, hs⟩ <;> rw [hs]
    · refine ⟨fun _ => ?_, fun x hx => by simp at hx, fun h => by simp at h, fun pre post x y _ _ h => by simp at h⟩
      cases hp : pinnedCentre (s.ch c) with
      | none => rw [repeatCentre_none hp]; exact ⟨rfl, rfl, fun _ h => by cases h⟩
      | some r =>
        obtain ⟨hpicture, hch⟩ := repeatCentre_some hp
        rw [hch]
        refine ⟨rfl, rfl, fun q hq => ?_⟩
        obtain rfl := Option.some.inj hq
        exact ⟨hpicture, rfl, rfl, rfl⟩
    · dsimp only
      rw [takeCentre_ch_same]
      refine ⟨fun h => by simp [h] at hx, fun q hq _ => ?_, fun h => absurd h (by omega),
        fun pre post q y hring hnodup h => ?_⟩
      · obtain rfl := Option.some.inj (hx.symm.trans hq)
        exact ⟨rfl, rfl, rfl, rfl⟩
      · rcases h with ⟨-, hq⟩ | ⟨h, -⟩
        · obtain rfl := Option.some.inj (hx.symm.trans hq)
          exact takenRing_split hring hnodup
        · omega
    · dsimp only
      have hd := dropCount_eq hlen hround hplain
      rw [hd] at hx ⊢
      rw [dropFields_ch_same, takeCentre_ch_same]
      refine ⟨fun h => by simp [h] at hlen, fun _ _ h => absurd h (by omega), fun _ => ⟨x, hx, rfl, rfl, rfl, rfl⟩,
        fun pre post q y hring hnodup h => ?_⟩
      rcases h with ⟨h, -⟩ | ⟨-, hq⟩
      · omega
      · obtain rfl := Option.some.inj (hx.symm.trans hq)
        exact takenRing_split hring hnodup
  · -- STARTING (R126), LOST (R134) and HALTING (R132)
    rw [chooseFrame_starting h]
    exact ⟨startingWork_few _, startingWork_two _⟩
  · rw [chooseFrame_lost h]
    exact ⟨lossActionWork_black, fun r => lossActionWork_hold⟩
  · refine ⟨fun hn ho => chooseFrame_halting_now h hr hn ho, fun hn ho => ?_, fun hn ho => ?_, fun hn => ?_⟩
    · rw [chooseFrame_halting_now h hr hn ho]
      exact ⟨startingWork_few _, startingWork_stay h⟩
    · rw [chooseFrame_halting_now h hr hn ho]
      exact ⟨lossActionWork_black, fun p => lossActionWork_hold⟩
    · rw [chooseFrame_halting h hr, if_pos hn, completeHalt_eq]
  · -- the frame that begins on the choice (R84, R105, R138)
    have hvalues : (endFrame c s).modCh c (frameValuesInForce n) =
        (endFrame c s).setCh c { (endFrame c s).ch c with ctl := ctl } := by
      subst hold hctl
      exact congrArg ((endFrame c s).setCh c) (frameValuesInForce_eq n _)
    rw [← hvalues] at hwork
    have hready := chosen_ready hwork hdone
    have hmoves := begunMoves_controlWork hwork hdone
    have hnone := hmoves.engine_none_iff.trans
      (begunChannel_engine_none_iff s.tables s.rtu.family n fun h => (hready h).pinned)
    obtain ⟨x, hx, hkind⟩ := begunChannel_scaler s.tables s.rtu.family n chosen.2 (chosen.1.ch c)
    have hpicture : x.kind = .picture ↔ chosen.2 = true := by
      rw [hkind, ne_eq, ← hmoves.engine_none_iff, hnone, Bool.not_eq_false]
    refine ⟨controlWork c n s, x, rfl, by rw [hmoves.eq]; rfl, by rw [hmoves.eq]; rfl, by rw [hmoves.eq]; rfl,
      by rw [hmoves.eq]; rfl, hmoves.buffer, by rw [hmoves.eq]; rfl, hmoves.images, hmoves.ring,
      (congrArg Channel.scaler hmoves.eq).trans hx, hpicture, hnone, fun f hf => ?_⟩
    obtain ⟨g, hg, hreads⟩ := hmoves.engine_some hf
    have hlatched := hreads.latched (begunChannel_latched hg)
    have hchosen : chosen.2 = true := by
      rw [← Bool.not_eq_false, ← hnone, hf]
      exact Option.some_ne_none f
    exact ⟨hlatched, fun hnodup r hr hnum => frameLatched_first_iff hlatched (hready hchosen) hnodup hr hnum⟩

end Sys2Proof.Machine
end

section
/-! SUPPORT. What each operation does to the DRAM: line writes, cut bursts and power-on apart, none reaches it (R48, R52). -/

namespace Sys2Proof.Machine

open Sys2Proof

/-! ### Directives -/

section

variable (c : Chan) (s : State) (n : Nat) (d : Directive)

/-- An answer takes a place in a queue and no byte of the DRAM. -/
theorem dram_abortedAnswers (r : Option HaltRecord) (l : LoadState) :
    (abortCommit c l (abortHalt c r s)).dram = s.dram := by
  have hhalt : (abortHalt c r s).dram = s.dram := by
    unfold abortHalt
    split <;> rfl
  unfold abortCommit
  split
  · split <;> exact hhalt
  · exact hhalt
  · exact hhalt

theorem dram_doResetChannel : (doResetChannel c d s).dram = s.dram := by
  have hreset : ((flushRing c (abandonFrame c s)).modCh c resetChannelPart).dram = s.dram :=
    (keepsDevice_abandonFrame c s).dram
  unfold doResetChannel
  dsimp only
  split
  · rw [(keepsDevice_raise ..).dram]
    exact (dram_abortedAnswers c _ _ _).trans hreset
  · exact (dram_abortedAnswers c _ _ _).trans hreset

/-- The directives to a channel other than RESET CHANNEL leave the DRAM. -/
theorem dram_channelDirectives :
    (doProbe c d s).dram = s.dram ∧ (doSetFormat c n d s).dram = s.dram ∧ (doSetParameters c n d s).dram = s.dram ∧
    (doStart c d s).dram = s.dram ∧ (doHalt c n d s).dram = s.dram ∧ (doReadStats c d s).dram = s.dram := by
  refine ⟨rfl, ?_, ?_, ?_, ?_, ?_⟩
  · unfold doSetFormat
    split <;> rfl
  · unfold doSetParameters
    split
    · rfl
    · dsimp only
      split
      · exact (keepsDevice_deliverHeld ..).dram
      · rfl
  · unfold doStart
    split
    · split <;> rfl
    · rfl
  · unfold doHalt
    split <;> rfl
  · unfold doReadStats
    split <;> rfl

/-- The load directives leave the DRAM. -/
theorem dram_loadDirectives :
    (doLoadBegin c d s).dram = s.dram ∧ (doLoadSegment c d s).dram = s.dram ∧ (doLoadCommit c n d s).dram = s.dram ∧
    (doLoadAbort c d s).dram = s.dram ∧ (doReadTable c d s).dram = s.dram := by
  refine ⟨?_, ?_, ?_, ?_, ?_⟩
  · unfold doLoadBegin
    split
    · rfl
    · split <;> rfl
    · rfl
    · rfl
  · unfold doLoadSegment
    split
    · rfl
    · rfl
    · dsimp only
      split
      · rfl
      · split <;> rfl
  · unfold doLoadCommit
    split
    · rfl
    · rfl
    · split
      · rfl
      · split
        · rfl
        · split <;> rfl
  · unfold doLoadAbort
    split
    · rfl
    · rfl
    · split <;> rfl
  · unfold doReadTable
    split
    · rfl
    · dsimp only
      split <;> rfl

/-- The directives to the device other than RESTART DEVICE leave the DRAM. -/
theorem dram_deviceDirectives :
    (doDeviceStatus c d s).dram = s.dram ∧ (doClearErrors c d s).dram = s.dram ∧
    (doSetDeviceOptions c d s).dram = s.dram ∧ (doArmProbe c d s).dram = s.dram ∧ (doReadProbe c d s).dram = s.dram := by
  refine ⟨rfl, rfl, ?_, ?_, rfl⟩
  · unfold doSetDeviceOptions
    split <;> rfl
  · unfold doArmProbe
    split
    · rfl
    · split <;> rfl

/-- Of the directives RESTART DEVICE alone reaches the DRAM (R165). -/
theorem dram_carryOutKind {k : DirKind} (hk : k ≠ .restartDevice) : (carryOutKind k c n d s).dram = s.dram := by
  obtain ⟨hprobe, hformat, hparams, hstart, hhalt, hstats⟩ := dram_channelDirectives c s n d
  obtain ⟨hbegin, hsegment, hcommit, habort, htable⟩ := dram_loadDirectives c s n d
  obtain ⟨hstatus, hclear, hoptions, harm, hread⟩ := dram_deviceDirectives c s d
  cases k with
  | probe => exact hprobe
  | setFormat => exact hformat
  | setParameters => exact hparams
  | start => exact hstart
  | halt => exact hhalt
  | resetChannel => exact dram_doResetChannel c s d
  | readStats => exact hstats
  | loadBegin => exact hbegin
  | loadSegment => exact hsegment
  | loadCommit => exact hcommit
  | loadAbort => exact habort
  | readTable => exact htable
  | deviceStatus => exact hstatus
  | clearErrors => exact hclear
  | setDeviceOptions => exact hoptions
  | armProbe => exact harm
  | readProbe => exact hread
  | restartDevice => exact absurd rfl hk

end

/-! ### The canonical form is kept -/

/-- From `s` to `t` the DRAM stays in canonical form. -/
def KeepsForm (s t : State) : Prop := Memory.wf s.dram → Memory.wf t.dram

section

variable {s t u : State}

theorem KeepsForm.trans (h : KeepsForm s t) (k : KeepsForm t u) : KeepsForm s u := fun hs => k (h hs)

theorem keepsForm_of_dram (h : t.dram = s.dram) : KeepsForm s t := fun hs => by rw [h]; exact hs

theorem KeepsDevice.keepsForm (h : KeepsDevice s t) : KeepsForm s t := keepsForm_of_dram h.dram

end

theorem keepsForm_carryOut (c : Chan) (n : Nat) (d : Directive) (s : State) : KeepsForm s (carryOut c n d s) := by
  unfold carryOut
  split
  · exact id
  · next k _ =>
    split
    · exact id
    · by_cases hk : k = .restartDevice
      · subst hk; exact cutBurst_wf
      · exact keepsForm_of_dram (dram_carryOutKind c s n d hk)

theorem keepsForm_takeNext (c : Chan) (n : Nat) (s : State) : KeepsForm s (takeNext c n s) := by
  unfold takeNext
  split
  · exact id
  · next d rest _ =>
    split
    · exact id
    · split
      · exact keepsForm_carryOut c n d (s.modCh c (leaveQueue rest))
      · exact id

theorem keepsForm_takeKind (c : Chan) (k : Option DirKind) (s : State) : KeepsForm s (takeKind c k s) := by
  unfold takeKind
  split
  · exact id
  · split
    · exact keepsForm_takeNext c _ s
    · exact id

/-- The loader's work reaches the tables and no byte of the DRAM (R150, R152). -/
theorem dram_loaderWork (n : Nat) (s : State) : (loaderWork n s).dram = s.dram := by
  have hhand : ∀ (e : TableEntry) (image : List Byte) (c : Chan) (u : State), KeepsDevice u (handSwap n e image c u) :=
    fun e image c u => by
      unfold handSwap
      split
      · exact keepsDevice_swapTracker _ c u
      · exact keepsDevice_modCh c _ u
      · exact keepsDevice_modCh c _ u
  unfold loaderWork loaderAdvance
  split
  · rfl
  · split
    · rfl
    · split
      · exact (keepsDevice_raise ..).dram
      · rfl
    · split
      · exact (keepsDevice_eachChan (hhand _ _) _).dram
      · rfl

/-- An output frame start keeps the form: of its work RESTART DEVICE alone reaches the DRAM (R120, R165). -/
theorem keepsForm_issueStart {news : State → State} (hnews : ∀ s, KeepsDevice s (news s)) (order : List StartWork)
    (s : State) : KeepsForm s (issueStart news order s) := by
  have hwork : ∀ n u w, KeepsForm u (doWork news n u w) := fun n u w => by
    cases w with
    | announce => exact (hnews u).keepsForm
    | loader => exact keepsForm_of_dram (dram_loaderWork n u)
    | control c => exact (keepsDevice_controlWork c n u).keepsForm
    | loss c => exact (keepsDevice_lossWork c u).keepsForm
    | report c => exact (keepsDevice_reportWork c u).keepsForm
    | packet c => exact keepsForm_takeNext c n u
  exact fun hs => List.foldlRecOn (motive := fun u : State => Memory.wf u.dram) (claimWork order allWork) _ hs
    fun u hu w _ => hwork _ u w hu

/-! ### Commands -/

/-- A single word reaches the channel, and the capture record unless inhibited (R55, R58). -/
theorem dram_singleWord (c : Chan) (slot : Fin 8) (k w field : Nat) (syndrome : Byte) (inhibited : Bool) (s : State) :
    (singleWord c slot k w field syndrome inhibited s).dram = s.dram := by
  have hraise := fun u => (keepsDevice_raise c .eccSingle field u).dram
  unfold singleWord
  dsimp only
  split <;> exact hraise _

theorem dram_doubleWord (c : Chan) (slot : Fin 8) (k w field num : Nat) (syndrome : Byte) (offer : Bool) (s : State) :
    (doubleWord c slot k w field num syndrome offer s).dram = s.dram := by
  have hraise := fun u => (keepsDevice_raise c .eccDouble field u).dram
  unfold doubleWord
  dsimp only
  split <;> exact hraise _

theorem dram_checkLine (c : Chan) (slot : Fin 8) (k num : Nat) (live present : Bool) (read : List Nat) (s : State) :
    (checkLine c slot k num live present read s).dram = s.dram := by
  unfold checkLine
  refine List.foldlRecOn (motive := fun u : State => u.dram = s.dram) _ _ rfl fun u hu w _ => ?_
  unfold checkWord
  split
  · exact hu
  · split
    · exact hu
    · rw [dram_singleWord, hu]
    · rw [dram_doubleWord, hu]

/-- Memory is not written back by a read (R52, R54). -/
theorem dram_readDelivered (c : Chan) (slot : Fin 8) (k num : Nat) (live present : Bool) (strikes : List Strike)
    (read : List Nat) (s : State) : (readDelivered c slot k num live present strikes read s).dram = s.dram := by
  have hcheck := dram_checkLine c slot k num live present read (strikeLine c slot k strikes s)
  unfold readDelivered handLine
  generalize checkLine c slot k num live present read (strikeLine c slot k strikes s) = u at hcheck ⊢
  split <;> exact hcheck

theorem keepsForm_execReadBurstComplete {line : LineRead} {s t : State} (h : execReadBurstComplete line s = .next t) :
    KeepsForm s t := by
  unfold execReadBurstComplete at h
  split at h <;> cases h
  · exact (keepsForm_of_dram (dram_readDelivered ..)).trans (keepsDevice_pumpEngine _ _).keepsForm
  · exact id

theorem keepsForm_execWriteBurstComplete {s t : State} (h : execWriteBurstComplete s = .next t) : KeepsForm s t := by
  unfold execWriteBurstComplete at h
  split at h <;> cases h
  · next c slot k words _ =>
    exact fun hs => (keepsDevice_burstEnded _).keepsForm (writeLine_wf hs c slot k words)
  · exact id

theorem keepsForm_execHaltComplete {c : Chan} {s t : State} (h : execHaltComplete c s = .next t) : KeepsForm s t := by
  unfold execHaltComplete at h
  split at h
  · split at h <;> cases h
    · exact (((keepsDevice_modCh c _ s).trans (keepsDevice_completeHalt c _ _)).trans (keepsDevice_modCh c _ _)).keepsForm
    · exact id
  · cases h; exact id

/-- LOAD_ABANDONED and TABLE_SWAP are the loader's work or nothing. -/
theorem dram_loaderRows {s t : State} (h : execLoadAbandoned s = .next t ∨ execTableSwap s = .next t) :
    t.dram = s.dram := by
  rcases h with h | h
  · unfold execLoadAbandoned at h
    split at h
    · split at h <;> cases h
      · exact dram_loaderWork _ s
      · rfl
    · cases h; rfl
  · unfold execTableSwap at h
    split at h
    · split at h <;> cases h
      · exact dram_loaderWork _ s
      · rfl
    · cases h; rfl

theorem keepsForm_execInputLoss {c : Chan} {s t : State} (h : execInputLoss c s = .next t) : KeepsForm s t := by
  unfold execInputLoss at h
  split at h <;> cases h
  · exact (keepsDevice_lossWork c s).keepsForm
  · exact id

theorem keepsForm_execControlPacket {c : Chan} {s t : State} (h : execControlPacket c s = .next t) : KeepsForm s t := by
  unfold execControlPacket at h
  split at h <;> cases h
  · exact id
  · next ws rest _ =>
    exact (keepsDevice_checkLineOf c ws (s.modCh c (fun ch => { ch with pku := { ch.pku with handed := rest } }))).keepsForm

theorem keepsForm_execTimingWord {c : Chan} {dt : Nat} {w : TimingWord} {line : LineIn} {s t : State}
    (h : execTimingWord c dt w line s = .next t) : KeepsForm s t := by
  cases h
  exact keepsForm_of_dram (keepsDevice_lineStart c w line _).dram

/-- The reference pulse and the two timers issue an output frame start, or do nothing (R115 to R117). -/
theorem keepsForm_starts {s t : State} (h : (∃ dt f order, execReferencePulse dt f order s = .next t) ∨
    (∃ order, execRefLossTimeout order s = .next t) ∨ ∃ order, execFreeRunExpiry order s = .next t) :
    KeepsForm s t := by
  rcases h with ⟨dt, f, order, h⟩ | ⟨order, h⟩ | ⟨order, h⟩
  · cases h
    exact keepsForm_issueStart (keepsDevice_pulseNews s.rtu f) order
      { s with now := s.now + dt, rtu := pulseRtu f (s.now + dt) }
  · unfold execRefLossTimeout at h
    split at h <;> cases h
    · exact id
    · exact keepsForm_issueStart (keepsDevice_raiseAll .refLost) order (expire s)
  · unfold execFreeRunExpiry at h
    split at h <;> cases h
    · exact keepsForm_issueStart (news := id) KeepsDevice.refl order (expire s)
    · exact id

/-- Every command keeps the form: it writes bytes (R49, R52), finds the DRAM at power-on (R47), or leaves the DRAM. -/
theorem exec_keepsForm {i : Instr} {s t : State} (h : exec i s = .next t) : KeepsForm s t := by
  have htaken : ∀ {c : Chan} {k : Option DirKind},
      (.next (takeKind c k s) : Host.Outcome State Fault Refusal) = .next t → KeepsForm s t := fun h => by
    cases h; exact keepsForm_takeKind _ _ s
  cases i with
  | powerOnReset straps found errs => cases h; exact fun _ => foundBytes_wf found
  | pinReset straps => cases h; exact cutBurst_wf
  | timingWord c dt w line => exact keepsForm_execTimingWord h
  | controlPacket c => exact keepsForm_execControlPacket h
  | writeBurstComplete => exact keepsForm_execWriteBurstComplete h
  | readBurstComplete line => exact keepsForm_execReadBurstComplete h
  | referencePulse dt f order => exact keepsForm_starts (.inl ⟨dt, f, order, h⟩)
  | refLossTimeout order => exact keepsForm_starts (.inr (.inl ⟨order, h⟩))
  | freeRunExpiry order => exact keepsForm_starts (.inr (.inr ⟨order, h⟩))
  | inputLoss c => exact keepsForm_execInputLoss h
  | loadAbandoned => exact keepsForm_of_dram (dram_loaderRows (.inl h))
  | tableSwap => exact keepsForm_of_dram (dram_loaderRows (.inr h))
  | haltComplete c => exact keepsForm_execHaltComplete h
  | outputLinePeriod c => exact (keepsDevice_execOutputLinePeriod h).keepsForm
  | restartDevice c | probe c | setFormat c | setParameters c | start c | halt c | resetChannel c | readStats c
  | loadBegin c | loadSegment c | loadCommit c | loadAbort c | readTable c | deviceStatus c | clearErrors c
  | setDeviceOptions c | armProbe c | readProbe c | unknownKind c => exact htaken h

/-- Settles O53: a step is the front command, and every command keeps the form. -/
theorem memoryStaysCanonical : Obligations.MemoryStaysCanonical := by
  intro s t hs h
  unfold step at h
  split at h
  · cases h; exact hs
  · next i rest _ => exact exec_keepsForm (s := { s with pending := rest }) h hs

end Sys2Proof.Machine
end

section
/-! SUPPORT. CLEAR ERRORS and SET DEVICE OPTIONS (R58, R59, R162). -/

namespace Sys2Proof.Machine

open Sys2Proof

/-- A directive kind by its number (R162). -/
theorem dirKind?_of_toNat {kind : Byte} {n : Nat} (h : kind.toNat = n) : dirKind? kind = dirKind? (BitVec.ofNat 8 n) := by
  rw [← h, BitVec.ofNat_toNat, BitVec.setWidth_eq]

/-- The option's values kept at a SET DEVICE OPTIONS: those of a read burst in flight (R58). -/
theorem setInhibit_eq {s : State} {before : List Bool}
    (hread : (∃ e slot k role num live present, s.arbiter.burst = some (.read e slot k role num live present)) →
      before = s.inhibitBefore ++ [s.inhibitSingle])
    (hidle : (∀ e slot k role num live present, s.arbiter.burst ≠ some (.read e slot k role num live present)) →
      before = []) (v : Bool) : setInhibit v s = { s with inhibitSingle := v, inhibitBefore := before } := by
  have hbefore : (if isRead s.arbiter.burst then s.inhibitBefore ++ [s.inhibitSingle] else []) = before := by
    cases hb : s.arbiter.burst with
    | none => exact (hidle (by simp [hb])).symm
    | some b =>
      cases b with
      | write c slot k words => exact (hidle (by simp [hb])).symm
      | read e slot k role num live present => exact (hread ⟨e, slot, k, role, num, live, present, hb⟩).symm
  unfold setInhibit
  rw [hbefore]

/-- Settles O22: the directive at the head is carried out, and answered. -/
theorem errorCaptureDirectives : Obligations.ErrorCaptureDirectives := by
  intro c s d rest before hread hidle
  refine ⟨fun h => ?_, fun h => ?_⟩
  · obtain ⟨-, hkind, hlen, -, -⟩ := id h
    show Host.Outcome.next (takeKind c (some .clearErrors) s) = _
    rw [takeKind_known h (dirKind?_of_toNat hkind) hlen]
    exact congrArg (fun u : State => Host.Outcome.next { u with capture := ErrorCapture.clear })
      (answer_leaveQueue c rest d .done none [] s)
  · obtain ⟨-, hkind, hlen, -, -⟩ := id h
    have hset := setInhibit_eq (s := s.modCh c (leaveQueue rest)) hread hidle
    have hdone : ∀ v, answerDone c d [] (setInhibit v (s.modCh c (leaveQueue rest))) =
        { answeredState c rest d .done none [] s with inhibitSingle := v, inhibitBefore := before } := fun v => by
      rw [hset]
      exact congrArg (fun u : State => { u with inhibitSingle := v, inhibitBefore := before })
        (answer_leaveQueue c rest d .done none [] s)
    show Host.Outcome.next (takeKind c (some .setDeviceOptions) s) = _
    rw [takeKind_known h (dirKind?_of_toNat hkind) hlen]
    show Host.Outcome.next (doSetDeviceOptions c d (s.modCh c (leaveQueue rest))) = _
    have harg : ∀ b : Byte, arg1 d.payload 0 = b.toNat ↔ d.payload.getD 0 0 = b := fun b => BitVec.toNat_inj
    unfold doSetDeviceOptions
    split
    · next h0 => rw [if_pos ((harg 0).1 h0), hdone]
    · next h1 => rw [(harg 1).1 h1, if_neg (by decide), if_pos rfl, hdone]
    · next h0 h1 =>
      rw [if_neg fun h => h0 ((harg 0).2 h), if_neg fun h => h1 ((harg 1).2 h)]
      exact congrArg Host.Outcome.next (answer_leaveQueue c rest d .refused (some .badArgument) [] s)

end Sys2Proof.Machine
end

section
/-! SUPPORT. A line of the DRAM: its bytes and its sample words (R48, R49), the row it delivers (R2, R54), and the write burst
that completes (R52). -/

namespace Sys2Proof.Machine

open Sys2Proof

/-! ### Words and bytes (R48) -/

/-- Bytes make a word below the power of their number. -/
theorem bytesWord_lt (bs : List Byte) : bytesWord bs < 256 ^ bs.length := by
  induction bs with
  | nil => exact Nat.one_pos
  | cons b bs ih =>
    have hb : b.toNat < 256 := b.isLt
    rw [List.length_cons, Nat.pow_succ]
    simp only [bytesWord]
    omega

/-- A word below 2^64 is read back from its bytes (R48). -/
theorem bytesWord_wordBytes {v : Nat} (h : v < 2 ^ 64) : bytesWord (wordBytes v) = v := by
  simp only [wordBytes, bytesWord, byteOf, BitVec.toNat_ofNat]
  omega

/-- Six sample words are read back from their data word (R48). -/
theorem unpackSix_packSix {a b c d e f : Nat} (ha : a < 1024) (hb : b < 1024) (hc : c < 1024) (hd : d < 1024)
    (he : e < 1024) (hf : f < 1024) : unpackSix (packSix a b c d e f) = [a, b, c, d, e, f] := by
  simp only [unpackSix, packSix, List.cons.injEq, and_true]
  omega

theorem packSix_lt (a b c d e f : Nat) : packSix a b c d e f < 2 ^ 64 := by
  unfold packSix
  omega

/-- Eight bytes to six words (R48). -/
theorem length_packLine {n : Nat} {words : List Nat} (h : words.length = 6 * n) : (packLine words).length = 8 * n := by
  induction n generalizing words with
  | zero => obtain rfl := List.eq_nil_of_length_eq_zero h; rfl
  | succ n ih =>
    match words with
    | a :: b :: c :: d :: e :: f :: rest =>
      have hrest : rest.length = 6 * n := by simp only [List.length_cons] at h; omega
      show ((wordBytes (packSix a b c d e f)) ++ packLine rest).length = _
      rw [List.length_append, ih hrest]
      show 8 + 8 * n = _
      omega
    | [] | [_] | [_, _] | [_, _, _] | [_, _, _, _] | [_, _, _, _, _] => simp only [List.length_cons, List.length_nil] at h; omega

/-! ### The words that a line delivers (R54) -/

/-- Two ways in which the words of a line may be struck deliver the same samples, when they deliver the same data words. -/
theorem lineSamples_congr {err err' : Nat → Option WordError} {n w : Nat} {bytes : List Byte} (hlen : bytes.length = 8 * n)
    (h : ∀ j v, j < n → v < 2 ^ 64 → deliveredWord v (err (w + j)) = deliveredWord v (err' (w + j))) :
    lineSamples err w bytes = lineSamples err' w bytes := by
  induction n generalizing bytes w with
  | zero => obtain rfl := List.eq_nil_of_length_eq_zero hlen; rfl
  | succ n ih =>
    match bytes with
    | b0 :: b1 :: b2 :: b3 :: b4 :: b5 :: b6 :: b7 :: rest =>
      have hrest : rest.length = 8 * n := by simp only [List.length_cons] at hlen; omega
      have hword := h 0 _ (Nat.zero_lt_succ n) 
        ((bytesWord_lt [b0, b1, b2, b3, b4, b5, b6, b7]).trans_eq (by norm_num))
      rw [Nat.add_zero] at hword
      have htail := ih (w := w + 1) hrest fun j v hj hv => by
        have := h (j + 1) v (Nat.succ_lt_succ hj) hv
        rwa [show w + (j + 1) = w + 1 + j by omega] at this
      simp only [lineSamples, hword, htail]
    | [] | [_] | [_, _] | [_, _, _] | [_, _, _, _] | [_, _, _, _, _] | [_, _, _, _, _, _] | [_, _, _, _, _, _, _] =>
      simp only [List.length_cons, List.length_nil] at hlen; omega

/-- A line of words below 1024 without errors is read back from its bytes (R48). -/
theorem lineSamples_packLine {n : Nat} {words : List Nat} (hlen : words.length = 6 * n) (hlow : ∀ x ∈ words, x < 1024)
    (w : Nat) : lineSamples (fun _ => none) w (packLine words) = words := by
  induction n generalizing words w with
  | zero => obtain rfl := List.eq_nil_of_length_eq_zero hlen; rfl
  | succ n ih =>
    match words with
    | a :: b :: c :: d :: e :: f :: rest =>
      have hrest : rest.length = 6 * n := by simp only [List.length_cons] at hlen; omega
      simp only [List.forall_mem_cons] at hlow
      obtain ⟨ha, hb, hc, hd, he, hf, hlow⟩ := hlow
      show unpackSix (bytesWord (wordBytes (packSix a b c d e f))) ++ lineSamples (fun _ => none) (w + 1) (packLine rest) = _
      rw [bytesWord_wordBytes (packSix_lt ..), unpackSix_packSix ha hb hc hd he hf, ih hrest hlow]
      rfl
    | [] | [_] | [_, _] | [_, _, _] | [_, _, _, _] | [_, _, _, _, _] =>
      simp only [List.length_cons, List.length_nil] at hlen; omega

/-! ### The row of a line (R2, R54) -/

theorem lumaWords_get (ws : List Nat) (i : Nat) : (lumaWords ws)[i]? = ws[2 * i + 1]? := by
  induction ws using lumaWords.induct generalizing i with
  | case1 x y rest ih =>
    cases i with
    | zero => rfl
    | succ i => exact ih i
  | case2 ws h =>
    match ws with
    | [] | [_] => simp [lumaWords]
    | x :: y :: rest => exact absurd rfl (h x y rest)

theorem chromaWords_get {ws : List Nat} {j : Nat} (h : 4 * j + 3 < ws.length) :
    (cbWords ws)[j]? = ws[4 * j]? ∧ (crWords ws)[j]? = ws[4 * j + 2]? := by
  induction j generalizing ws with
  | zero =>
    match ws with
    | a :: b :: c :: d :: rest => exact ⟨rfl, rfl⟩
    | [] | [_] | [_, _] | [_, _, _] => simp at h
  | succ j ih =>
    match ws with
    | a :: b :: c :: d :: rest => exact ih (by simp only [List.length_cons] at h; omega)
    | [] | [_] | [_, _] | [_, _, _] => simp only [List.length_cons, List.length_nil] at h; omega

theorem length_lumaWords {n : Nat} {ws : List Nat} (h : ws.length = 2 * n) : (lumaWords ws).length = n := by
  induction n generalizing ws with
  | zero => obtain rfl := List.eq_nil_of_length_eq_zero h; rfl
  | succ n ih =>
    match ws with
    | a :: b :: rest => exact congrArg (· + 1) (ih (by simp only [List.length_cons] at h; omega))
    | [] | [_] => simp only [List.length_cons, List.length_nil] at h; omega

theorem length_chromaWords {n : Nat} {ws : List Nat} (h : ws.length = 4 * n) :
    (cbWords ws).length = n ∧ (crWords ws).length = n := by
  induction n generalizing ws with
  | zero => obtain rfl := List.eq_nil_of_length_eq_zero h; exact ⟨rfl, rfl⟩
  | succ n ih =>
    match ws with
    | a :: b :: c :: d :: rest =>
      obtain ⟨hcb, hcr⟩ := ih (ws := rest) (by simp only [List.length_cons] at h; omega)
      exact ⟨congrArg (· + 1) hcb, congrArg (· + 1) hcr⟩
    | [] | [_] | [_, _] | [_, _, _] => simp only [List.length_cons, List.length_nil] at h; omega

/-- A component's sample, from its word. -/
theorem getD_toArray_map {l : List Nat} {i v : Nat} (f : Nat → Nat) (h : l[i]? = some v) :
    (l.map f).toArray.getD i 0 = f v := by
  simp [Array.getD_eq_getD_getElem?, h]

/-- The row of a line's words: each component clamped into its range (R2, R54). -/
theorem rowOfWords_spec {ws : List Nat} (hlen : ws.length = 1440) :
    (rowOfWords ws).y.size = 720 ∧ (rowOfWords ws).cb.size = 360 ∧ (rowOfWords ws).cr.size = 360 ∧
    (∀ i, i < 720 → (rowOfWords ws).y.getD i 0 = legalLuma (ws.getD (2 * i + 1) 0)) ∧
    (∀ j, j < 360 → (rowOfWords ws).cb.getD j 0 = legalChroma (ws.getD (4 * j) 0) ∧
      (rowOfWords ws).cr.getD j 0 = legalChroma (ws.getD (4 * j + 2) 0)) := by
  have hget : ∀ n, n < 1440 → ws[n]? = some (ws.getD n 0) := fun n hn => by
    have hn' : n < ws.length := by omega
    rw [List.getElem?_eq_getElem hn', List.getD_eq_getElem _ _ hn']
  obtain ⟨hcb, hcr⟩ := length_chromaWords (n := 360) hlen
  refine ⟨?_, ?_, ?_, fun i hi => ?_, fun j hj => ?_⟩
  · simpa [rowOfWords] using length_lumaWords (n := 720) hlen
  · simpa [rowOfWords] using hcb
  · simpa [rowOfWords] using hcr
  · exact getD_toArray_map legalLuma (by rw [lumaWords_get, hget _ (by omega)])
  · obtain ⟨hb, hr⟩ := chromaWords_get (ws := ws) (j := j) (by omega)
    exact ⟨getD_toArray_map legalChroma (by rw [hb, hget _ (by omega)]),
      getD_toArray_map legalChroma (by rw [hr, hget _ (by omega)])⟩

/-- A value within a range is its own clamp. -/
theorem clampNat_of_mem {lo hi x : Nat} (hlo : lo ≤ x) (hhi : x ≤ hi) : clampNat lo hi x = x := by
  unfold clampNat
  rw [if_neg (by omega), if_neg (by omega)]

/-- A line of legal words (R3): each below 1024, and its row holds the words themselves. -/
theorem rowOfWords_legal {ws : List Nat} (hlen : ws.length = 1440)
    (hlegal : ∀ i, i < 1440 → 64 ≤ ws.getD i 0 ∧ ws.getD i 0 ≤ (if i % 2 = 1 then 940 else 960)) :
    (∀ x ∈ ws, x < 1024) ∧ (∀ i, i < 720 → (rowOfWords ws).y.getD i 0 = ws.getD (2 * i + 1) 0) ∧
    ∀ j, j < 360 → (rowOfWords ws).cb.getD j 0 = ws.getD (4 * j) 0 ∧ (rowOfWords ws).cr.getD j 0 = ws.getD (4 * j + 2) 0 := by
  have hluma : ∀ n, n < 1440 → n % 2 = 1 → legalLuma (ws.getD n 0) = ws.getD n 0 := fun n hn hodd => by
    obtain ⟨hlo, hhi⟩ := hlegal n hn
    rw [if_pos hodd] at hhi
    exact clampNat_of_mem hlo hhi
  have hchroma : ∀ n, n < 1440 → n % 2 = 0 → legalChroma (ws.getD n 0) = ws.getD n 0 := fun n hn heven => by
    obtain ⟨hlo, hhi⟩ := hlegal n hn
    rw [if_neg (by omega)] at hhi
    exact clampNat_of_mem hlo hhi
  obtain ⟨-, -, -, hy, hc⟩ := rowOfWords_spec hlen
  refine ⟨fun x hx => ?_, fun i hi => ?_, fun j hj => ?_⟩
  · obtain ⟨i, hi, rfl⟩ := List.getElem_of_mem hx
    obtain ⟨-, hhi⟩ := hlegal i (by omega)
    rw [List.getD_eq_getElem _ _ hi] at hhi
    split at hhi <;> omega
  · rw [hy i hi, hluma _ (by omega) (by omega)]
  · obtain ⟨hcb, hcr⟩ := hc j hj
    exact ⟨by rw [hcb, hchroma _ (by omega) (by omega)], by rw [hcr, hchroma _ (by omega) (by omega)]⟩

/-! ### A write burst (R52) -/

/-- Fresh check bits leave no error in the bytes written (R48). -/
theorem storedError_clearErrorsAt_inside {errs : List (Nat × WordError)} {base n a : Nat} (hlo : base ≤ a)
    (hhi : a < base + n) : storedError (clearErrorsAt errs base n) a = none := by
  have hnone : (clearErrorsAt errs base n).find? (fun x => x.1 == a) = none := by
    refine List.find?_eq_none.2 fun x hx hxa => ?_
    have hout := (List.mem_filter.1 hx).2
    simp only [beq_iff_eq] at hxa
    simp only [hxa, Bool.or_eq_true, decide_eq_true_eq] at hout
    omega
  unfold storedError
  rw [hnone]
  rfl

/-- A line of words below 1024 just written reads back as the row of its words (R48, R49, R52). -/
theorem readLine_writeLine {c : Chan} {slot : Fin 8} {k : Nat} {words : List Nat} {s t : State} (hlen : words.length = 1440)
    (hlow : ∀ x ∈ words, x < 1024) (hdram : t.dram = (writeLine c slot k words s).dram)
    (herrs : t.dramErrs = (writeLine c slot k words s).dramErrs) : readLine t c slot k = rowOfWords words := by
  have hbytes : (packLine words).length = 1920 := length_packLine (n := 240) hlen
  have hclean : ∀ w, w < 240 → wordErrorAt t c slot k w = none := fun w hw => by
    unfold wordErrorAt
    rw [herrs]
    exact storedError_clearErrorsAt_inside (by unfold wordAddress; omega) (by rw [hbytes]; unfold wordAddress; omega)
  have hblock : dramBlock t.dram (lineAddress c slot k) 1920 = packLine words := by
    rw [hdram, ← hbytes]
    exact dramBlock_dramWrite ..
  unfold readLine
  rw [hblock, lineSamples_congr (err' := fun _ => none) (n := 240) hbytes
    (fun j v hj _ => by rw [Nat.zero_add, hclean j hj]), lineSamples_packLine (n := 240) hlen hlow]

/-- A write burst that completes writes its line, and an IDLE arbiter grants (R51, R52). -/
theorem exec_writeBurstComplete {c : Chan} {slot : Fin 8} {k : Nat} {words : List Nat} {s : State}
    (h : s.arbiter.burst = some (.write c slot k words)) :
    exec .writeBurstComplete s = .next (burstEnded (writeLine c slot k words s)) := by
  show execWriteBurstComplete s = _
  unfold execWriteBurstComplete
  rw [h]

/-- Settles O37: what the burst writes, and what the arbiter's next grant leaves. -/
theorem lineWrittenReadsBack : Obligations.LineWrittenReadsBack := by
  intro s
  refine ⟨fun h => ?_, fun c slot k words hb => ⟨?_, fun hlen hlegal => ?_⟩⟩
  · show execWriteBurstComplete s = _
    unfold execWriteBurstComplete
    split
    · next hb => exact absurd hb (h _ _ _ _)
    · rfl
  · have hdev := keepsDevice_burstEnded (writeLine c slot k words s)
    refine ⟨_, exec_writeBurstComplete hb, ?_⟩
    rw [hdev.dram, hdev.dramErrs]
    rfl
  · obtain ⟨u, hu⟩ : ∃ u, u = freeArbiter (writeLine c slot k words s) := ⟨_, rfl⟩
    have hdev := keepsDevice_arbitrate u
    have hgrant := grantMoves_arbitrate u
    have hprobe := (reachesChannel_arbitrate (c := c) (s := u)).probe
    have hexec : exec .writeBurstComplete s = .next (arbitrate u) := by rw [exec_writeBurstComplete hb, hu]; rfl
    have hbytes : (packLine words).length = 1920 := length_packLine (n := 240) hlen
    obtain ⟨hlow, hluma, hchroma⟩ := rowOfWords_legal hlen hlegal
    have hread : readLine (arbitrate u) c slot k = rowOfWords words :=
      readLine_writeLine (s := s) hlen hlow (hdev.dram.trans (by rw [hu]; rfl)) (hdev.dramErrs.trans (by rw [hu]; rfl))
    obtain ⟨hy, hcb, hcr, -⟩ := rowOfWords_spec hlen
    refine ⟨arbitrate u, rowOfWords words, hexec, hread, hy, hcb, hcr, hluma, hchroma, fun a ha => ?_, ?_⟩
    · rw [hdev.dram, hdev.dramErrs, hu]
      exact ⟨dramRead_dramWrite_outside (by rw [hbytes]; exact ha), storedError_clearErrorsAt (by rw [hbytes]; exact ha)⟩
    · rw [hdev.capture, hdev.tables, hdev.loader, hdev.rtu, hprobe, hu]
      refine ⟨rfl, rfl, rfl, rfl, rfl, fun e => ?_⟩
      rw [← hu, (hgrant e).eq, hu]
      exact ⟨rfl, rfl, rfl⟩

end Sys2Proof.Machine
end

section
/-! SUPPORT. The arbiter's requests and grants (R50, R51, R21, R22, R61). -/

namespace Sys2Proof.Machine

open Sys2Proof

/-! ### The rotation (R51) -/

/-- A channel's place in the rotation behind `last`. -/
def turnOf (last c : Chan) : Nat := (chanNat c + 3 - chanNat last) % 4

/-- The rotation stands in the order of the places. -/
theorem pairwise_rotation (last : Chan) : (rotation last).Pairwise (fun a b => turnOf last a < turnOf last b) := by
  cases last <;> decide

/-- The search in rotation finds a channel when those at earlier places have nothing. -/
theorem findSome?_rotation {β : Type} {f : Chan → Option β} {last c : Chan} {b : β} (hf : f c = some b)
    (h : ∀ e, turnOf last e < turnOf last c → f e = none) : (rotation last).findSome? f = some b := by
  obtain ⟨before, after, hsplit⟩ := List.append_of_mem (mem_rotation last c)
  have horder := pairwise_rotation last
  rw [hsplit, List.pairwise_append] at horder
  obtain ⟨-, -, hbefore⟩ := horder
  have hnone : before.findSome? f = none :=
    List.findSome?_eq_none_iff.2 fun e he => h e (hbefore e he c List.mem_cons_self)
  rw [hsplit, List.findSome?_append, hnone, Option.none_or, List.findSome?_cons, hf]

/-! ### Requests (R50) -/

theorem writeRequest_iff {ch : Channel} {slot : Fin 8} {l : BufLine} : writeRequest ch = some (slot, l) ↔
    ch.recv.buffer[0]? = some l ∧ ∃ r, fillingRecord ch.ring = some r ∧ r.slot = slot := by
  unfold writeRequest
  cases ch.recv.buffer with
  | nil => simp
  | cons x rest =>
    cases fillingRecord ch.ring with
    | none => simp
    | some r => simp [and_comm]

theorem readRequest_iff {ch : Channel} {src : SourceRef} {role : Role} {k : Nat} :
    readRequest ch = some (src, role, k) ↔ ∃ f, ch.engine = some f ∧ f.read = .pending ∧ role = turnRole f.turn ∧
      k = turnLine f.turn ∧ frameSource f role = some src := by
  unfold readRequest
  cases ch.engine with
  | none => simp
  | some f =>
    by_cases hpending : f.read = .pending
    · simp only [hpending, if_true, Option.some.injEq, exists_eq_left', true_and, Option.map_eq_some_iff, Prod.mk.injEq]
      constructor
      · rintro ⟨x, hx, rfl, rfl, rfl⟩; exact ⟨rfl, rfl, hx⟩
      · rintro ⟨rfl, rfl, hx⟩; exact ⟨src, hx, rfl, rfl, rfl⟩
    · simp [hpending]

/-! ### Grants (R51) -/

/-- A pending write whose place in the rotation is first is the next. -/
theorem nextWriter_first {s : State} {c : Chan} {slot : Fin 8} {l : BufLine} (hreq : writeRequest (s.ch c) = some (slot, l))
    (h : ∀ e, turnOf s.arbiter.lastWrite e < turnOf s.arbiter.lastWrite c → writeRequest (s.ch e) = none) :
    nextWriter s = some (c, slot, l) :=
  findSome?_rotation (by rw [hreq]; rfl) fun e he => by rw [h e he]; rfl

theorem nextWriter_none {s : State} (h : ∀ e, writeRequest (s.ch e) = none) : nextWriter s = none :=
  List.findSome?_eq_none_iff.2 fun e _ => by rw [h e]; rfl

theorem nextReader_first {s : State} {c : Chan} {src : SourceRef} {role : Role} {k : Nat}
    (hreq : readRequest (s.ch c) = some (src, role, k))
    (h : ∀ e, turnOf s.arbiter.lastRead e < turnOf s.arbiter.lastRead c → readRequest (s.ch e) = none) :
    nextReader s = some (c, src, role, k) :=
  findSome?_rotation (by rw [hreq]; rfl) fun e he => by rw [h e he]; rfl

theorem nextReader_none {s : State} (h : ∀ e, readRequest (s.ch e) = none) : nextReader s = none :=
  List.findSome?_eq_none_iff.2 fun e _ => by rw [h e]; rfl

/-- What a write grant does to its channel (R21, R22, R61). -/
theorem grantWriteTo_eq {ch : Channel} {l : BufLine} {r : FieldRecord} (hl : ch.recv.buffer[0]? = some l)
    (hr : fillingRecord ch.ring = some r) : grantWriteTo ch = { ch with
      recv := { ch.recv with buffer := ch.recv.buffer.drop 1 }
      ring := ch.ring.map (fun x => if x.state = .filling then { x with stored := x.stored + 1 } else x)
      cad := { ch.cad with images := ch.cad.images.map (copyToImage r.num l.line l.words) } } := by
  unfold grantWriteTo
  rw [hr]
  cases hb : ch.recv.buffer with
  | nil => rw [hb] at hl; cases hl
  | cons x rest =>
    rw [hb] at hl
    obtain rfl := Option.some.inj hl
    rfl

/-- Settles O38: requests by the channel's own items, and the grant by the first place in the rotation. -/
theorem arbiterGrantsWritesFirst : Obligations.ArbiterGrantsWritesFirst := by
  rintro s turn rfl
  refine ⟨fun hb => ?_, fun c slot l => writeRequest_iff, fun c src role k => readRequest_iff,
    fun c slot l hb hreq hfirst => ?_, fun c src role k hb hnone hreq hfirst => ?_, fun hnone => ?_⟩
  · obtain ⟨b, hb⟩ := Option.ne_none_iff_exists'.1 hb
    exact arbitrate_busy s hb
  · obtain ⟨hl, r, hr, hslot⟩ := writeRequest_iff.1 hreq
    refine ⟨r, hr, hslot, ?_⟩
    unfold arbitrate
    rw [hb, nextWriter_first hreq hfirst]
    exact congrArg (fun ch => ({ s.setCh c ch with
      arbiter := ⟨some (.write c slot l.line l.words), c, s.arbiter.lastRead⟩ } : State)) (grantWriteTo_eq hl hr)
  · unfold arbitrate
    rw [hb, nextWriter_none hnone, nextReader_first hreq hfirst]
    rfl
  · unfold arbitrate
    rw [nextWriter_none fun e => (hnone e).1, nextReader_none fun e => (hnone e).2]
    cases s.arbiter.burst <;> rfl

end Sys2Proof.Machine
end

section
/-! SUPPORT. The words of a read burst, tested in word order (R54 to R58, R38): what the test of a line leaves of the requesting
channel, and what it offers the Error Capture record. -/

namespace Sys2Proof.Machine

open Sys2Proof

/-! ### The dropout that double words offer (R38, R56) -/

/-- Offered with cause ECC a second time, a record does not change (R37). -/
theorem offerToRecord_ecc_again (k : Nat) (r : FieldRecord) :
    offerToRecord k .ecc (offerToRecord k .ecc r).1 = ((offerToRecord k .ecc r).1, false) := by
  have hstays : ∀ ds : List Dropout, ds.map (fun d => recause d k .ecc) = ds := fun ds => by
    refine (List.map_congr_left fun d _ => ?_).trans (List.map_id ds)
    unfold recause
    rw [if_neg (by simp)]
    rfl
  have hlisted : ∀ q : FieldRecord, (∃ d ∈ q.dropouts, d.line = k) → offerToRecord k .ecc q = (q, false) := fun q h => by
    have hany : q.dropouts.any (fun d => d.line == k) = true := by simpa using h
    unfold offerToRecord offerDropout
    rw [if_pos hany, hstays]
  have hfull : ∀ q : FieldRecord, q.damaged = true → (∀ d ∈ q.dropouts, d.line ≠ k) → 16 ≤ q.dropouts.length →
      offerToRecord k .ecc q = (q, false) := fun q hd hn h16 => by
    have hany : ¬ q.dropouts.any (fun d => d.line == k) = true := by simpa using hn
    have hsame : { q with damaged := true } = q := by rw [← hd]
    unfold offerToRecord offerDropout
    rw [if_neg hany, if_neg (by omega)]
    dsimp only
    rw [hsame, hd]
    rfl
  rcases offerToRecord_outcomes k .ecc r with ⟨hl, h⟩ | ⟨-, -, h⟩ | ⟨hn, h16, h⟩ <;> rw [h]
  · exact hlisted _ (by rw [hstays]; exact hl)
  · exact hlisted _ ⟨⟨k, .ecc⟩, (placeDropout_perm _ _).mem_iff.2 List.mem_cons_self, rfl⟩
  · exact hfull _ rfl hn h16

/-- Whether an offer of line `k` finds no place in the record of a number, and sets its damaged flag newly (R20, R37). -/
def newlyDamaged (num k : Nat) (ring : List FieldRecord) : Bool :=
  (findRecord ring num).any (fun r => (offerToRecord k .ecc r).2)

/-- The ring once line `k` has been offered with cause ECC to the records of a number, when it was (R38). -/
def eccRing (offered : Bool) (num k : Nat) (ring : List FieldRecord) : List FieldRecord :=
  ring.map (fun r => if offered = true ∧ r.num = num then (offerToRecord k .ecc r).1 else r)

@[simp] theorem eccRing_false (num k : Nat) (ring : List FieldRecord) : eccRing false num k ring = ring := by
  simp [eccRing]

theorem eccRing_true (num k : Nat) (ring : List FieldRecord) :
    eccRing true num k ring = modRecord num (fun r => (offerToRecord k .ecc r).1) ring := by
  simp [eccRing, modRecord]

theorem offerToRecord_num (k : Nat) (cause : Cause) (r : FieldRecord) : (offerToRecord k cause r).1.num = r.num := by
  rw [offerToRecord_eq]

/-- The count of damaged fields with it (R38). -/
def eccDamage (offered : Bool) (num k : Nat) (ring : List FieldRecord) (n : Nat) : Nat :=
  if offered && newlyDamaged num k ring then min 65535 (n + 1) else n

/-- A dropout of cause ECC, offered to a channel of which the records stand (R38). -/
theorem offerToRing_ecc (num k : Nat) (ch : Channel) : offerToRing num k .ecc ch = { ch with
    ring := eccRing true num k ch.ring
    stats := { ch.stats with damagedFields := eccDamage true num k ch.ring ch.stats.damagedFields } } := by
  unfold offerToRing eccDamage newlyDamaged
  rw [eccRing_true]
  cases hr : findRecord ch.ring num with
  | none =>
    have hnone : modRecord num (fun r => (offerToRecord k .ecc r).1) ch.ring = ch.ring :=
      modRecord_of_forall_ne fun r hm => by simpa using List.find?_eq_none.1 hr r hm
    simp [hnone]
  | some r =>
    by_cases hnew : (offerToRecord k .ecc r).2 = true <;> simp [hnew, satAdd]

/-- An offer of the line behind such an offer, or behind none, leaves what one offer leaves (R37, R38). -/
theorem offerToRing_ecc_again {num k n : Nat} {ring : List FieldRecord} {ch : Channel} (offered : Bool)
    (hring : ch.ring = eccRing offered num k ring) (hstats : ch.stats.damagedFields = eccDamage offered num k ring n) :
    offerToRing num k .ecc ch = { ch with
      ring := eccRing true num k ring
      stats := { ch.stats with damagedFields := eccDamage true num k ring n } } := by
  rw [offerToRing_ecc, hring, hstats]
  cases offered with
  | false => simp [eccDamage]
  | true =>
    have hagain : eccRing true num k (eccRing true num k ring) = eccRing true num k ring := by
      rw [eccRing_true, eccRing_true, modRecord_modRecord (offerToRecord_num k .ecc)]
      simp only [offerToRecord_ecc_again]
    have hold : newlyDamaged num k (eccRing true num k ring) = false := by
      unfold newlyDamaged
      rw [eccRing_true]
      cases hr : findRecord ring num with
      | none =>
        have hnone : modRecord num (fun r => (offerToRecord k .ecc r).1) ring = ring :=
          modRecord_of_forall_ne fun r hm => by simpa using List.find?_eq_none.1 hr r hm
        rw [hnone, hr]
        rfl
      | some r =>
        obtain rfl : r.num = num := by simpa using List.find?_some hr
        rw [findRecord_modRecord (offerToRecord_num k .ecc) hr, Option.any_some, offerToRecord_ecc_again]
    have hcount : ∀ m, eccDamage true num k (eccRing true num k ring) m = m := fun m => by simp [eccDamage, hold]
    rw [hagain, hcount]

/-! ### One word (R54 to R58) -/

/-- The class of a word, clean where no error is stored (R54). -/
def wordClass (err : Nat → Option WordError) (w : Nat) : WordClass := ((err w).map WordError.cls).getD .clean

/-- What a word offers the Error Capture record (R55, R56, R58). -/
def captureWord (c : Chan) (slot : Fin 8) (k : Nat) (err : Nat → Option WordError) (inhibited : Nat → Bool)
    (x : ErrorCapture) (w : Nat) : ErrorCapture :=
  match err w with
  | none => x
  | some e =>
    match e.cls with
    | .clean  => x
    | .single => if inhibited w then x else offerCapture false c slot k w e.syndrome x
    | .double => offerCapture true c slot k w e.syndrome x

/-- The event of a word's class (R55, R56). -/
def raiseWord (c : Chan) (field : Nat) (cls : WordClass) (s : State) : State :=
  match cls with
  | .clean  => s
  | .single => raise c .eccSingle field s
  | .double => raise c .eccDouble field s

/-- A word's class counted (R55, R56). -/
def countWord (cls : WordClass) (ch : Channel) : Channel :=
  match cls with
  | .clean  => ch
  | .single => { ch with stats := { ch.stats with eccSingle := satAdd ch.stats.eccSingle 1 } }
  | .double => { ch with stats := { ch.stats with eccDouble := satAdd ch.stats.eccDouble 1 } }

theorem keepsDevice_raiseWord (c : Chan) (field : Nat) (cls : WordClass) (s : State) :
    KeepsDevice s (raiseWord c field cls s) := by
  cases cls with
  | clean => exact .refl s
  | single => exact keepsDevice_raise ..
  | double => exact keepsDevice_raise ..

theorem raiseWord_eq_setCh (c : Chan) (field : Nat) (cls : WordClass) (s : State) :
    raiseWord c field cls s = s.setCh c { s.ch c with rep := ((raiseWord c field cls s).ch c).rep } := by
  cases cls with
  | clean => exact (State.setCh_ch c s).symm
  | single => exact raise_eq_setCh ..
  | double => exact raise_eq_setCh ..

theorem raiseWord_rep_congr {c : Chan} {s t : State} (hrep : (t.ch c).rep = (s.ch c).rep)
    (hhalt : (t.ch c).ctl.halt = (s.ch c).ctl.halt) (hload : t.loader = s.loader) (field : Nat) (cls : WordClass) :
    ((raiseWord c field cls t).ch c).rep = ((raiseWord c field cls s).ch c).rep := by
  cases cls with
  | clean => exact hrep
  | single => exact raise_rep_congr hrep hhalt hload ..
  | double => exact raise_rep_congr hrep hhalt hload ..

section

variable (c : Chan) (slot : Fin 8) (k field num : Nat) (offer : Bool) (inhibited : Nat → Bool) (s : State) (w : Nat)

/-- All that the test of a word does: its count, its event, its offers (R55, R56). -/
theorem checkWord_eq {cls : WordClass} (h : wordClass (wordErrorAt s c slot k) w = cls) :
    checkWord c slot k field num offer inhibited s w =
      { (raiseWord c field cls (s.modCh c (countWord cls))).modCh c
          (fun ch => if offer = true ∧ cls = .double then offerToRing num k .ecc ch else ch) with
        capture := captureWord c slot k (wordErrorAt s c slot k) inhibited s.capture w } := by
  have hsame : ∀ t : State, t.modCh c (fun ch => ch) = t := State.setCh_ch c
  have hclean : s.modCh c (countWord .clean) = s := State.setCh_ch c s
  unfold checkWord captureWord
  cases herr : wordErrorAt s c slot k w with
  | none =>
    simp only [wordClass, herr, Option.map_none, Option.getD_none] at h
    subst h
    simp only [raiseWord, hclean, reduceCtorEq, and_false, if_false, hsame]
  | some e =>
    simp only [wordClass, herr, Option.map_some, Option.getD_some] at h
    dsimp only
    rw [h]
    cases cls with
    | clean => simp only [raiseWord, hclean, reduceCtorEq, and_false, if_false, hsame]
    | single =>
      have hcapture := (keepsDevice_raise c .eccSingle field (s.modCh c (countWord .single))).capture
      unfold singleWord
      simp only [reduceCtorEq, and_false, if_false, hsame]
      cases inhibited w with
      | true => exact congrArg (fun x => { raise c .eccSingle field (s.modCh c (countWord .single)) with capture := x }) hcapture
      | false =>
        exact congrArg (fun x => { raise c .eccSingle field (s.modCh c (countWord .single)) with
          capture := offerCapture false c slot k w e.syndrome x }) hcapture
    | double =>
      have hcapture := (keepsDevice_raise c .eccDouble field (s.modCh c (countWord .double))).capture
      unfold doubleWord
      simp only [and_true]
      cases offer with
      | true =>
        exact congrArg (fun x => { (raise c .eccDouble field (s.modCh c (countWord .double))).modCh c
          (offerToRing num k .ecc) with capture := offerCapture true c slot k w e.syndrome x }) hcapture
      | false =>
        simp only [Bool.false_eq_true, if_false, hsame]
        exact congrArg (fun x => { raise c .eccDouble field (s.modCh c (countWord .double)) with
          capture := offerCapture true c slot k w e.syndrome x }) hcapture

end

/-! ### The words of a line, in order -/

/-- The channel once the words `l` of a line have been tested, its reports then `rep` (R38, R55, R56). -/
def checkedChannel (cls : Nat → WordClass) (offer : Bool) (num k : Nat) (l : List Nat) (rep : ReportPort)
    (ch : Channel) : Channel :=
  { ch with
    ring := eccRing (offer && l.any (fun w => decide (cls w = .double))) num k ch.ring
    rep := rep
    stats := { ch.stats with
      eccSingle := min 65535 (ch.stats.eccSingle + l.countP (fun w => decide (cls w = .single)))
      eccDouble := min 65535 (ch.stats.eccDouble + l.countP (fun w => decide (cls w = .double)))
      damagedFields := eccDamage (offer && l.any (fun w => decide (cls w = .double))) num k ch.ring
        ch.stats.damagedFields } }

/-- One more word tested, ahead of its offer to the ring. -/
theorem checkedChannel_append (cls : Nat → WordClass) (offer : Bool) (num k : Nat) (l : List Nat) (w : Nat)
    (rep rep' : ReportPort) (ch : Channel) :
    (fun x => if offer = true ∧ cls w = .double then offerToRing num k .ecc x else x)
      { countWord (cls w) (checkedChannel cls offer num k l rep ch) with rep := rep' } =
      checkedChannel cls offer num k (l ++ [w]) rep' ch := by
  have hsat : ∀ a n : Nat, satAdd (min 65535 (a + n)) 1 = min 65535 (a + (n + 1)) := fun a n => by unfold satAdd; omega
  dsimp only
  cases hw : cls w with
  | clean => simp [checkedChannel, countWord, hw]
  | single => simp [checkedChannel, countWord, hw, hsat]
  | double =>
    cases offer with
    | false => simp [checkedChannel, countWord, hw, hsat]
    | true =>
      rw [if_pos ⟨rfl, rfl⟩, offerToRing_ecc_again (ring := ch.ring) (n := ch.stats.damagedFields)
        (true && l.any (fun w => decide (cls w = .double))) rfl rfl]
      simp [checkedChannel, countWord, hw, hsat]

section

variable {c : Chan} {slot : Fin 8} {k field num : Nat} {offer : Bool} {inhibited : Nat → Bool}

/-- What the test of the words `l` leaves: the requesting channel, and the Error Capture record (R54 to R58). -/
theorem foldl_checkWord {s : State} (hsingle : (s.ch c).stats.eccSingle ≤ 65535) (hdouble : (s.ch c).stats.eccDouble ≤ 65535)
    (cls : Nat → WordClass) (hcls : cls = wordClass (wordErrorAt s c slot k)) (l : List Nat) :
    l.foldl (checkWord c slot k field num offer inhibited) s =
      { s.setCh c (checkedChannel cls offer num k l
          ((l.foldl (fun u w => raiseWord c field (cls w) u) s).ch c).rep (s.ch c)) with
        capture := l.foldl (captureWord c slot k (wordErrorAt s c slot k) inhibited) s.capture } := by
  induction l using List.reverseRecOn with
  | nil =>
    have hstart : checkedChannel cls offer num k [] (s.ch c).rep (s.ch c) = s.ch c := by
      have h1 : min 65535 (s.ch c).stats.eccSingle = (s.ch c).stats.eccSingle := by omega
      have h2 : min 65535 (s.ch c).stats.eccDouble = (s.ch c).stats.eccDouble := by omega
      simp [checkedChannel, eccDamage, h1, h2]
    simp only [List.foldl_nil]
    rw [hstart, State.setCh_ch]
  | append_singleton l w ih =>
    have hraised : KeepsDevice s (l.foldl (fun u w => raiseWord c field (cls w) u) s) ∧
        ((l.foldl (fun u w => raiseWord c field (cls w) u) s).ch c).ctl = (s.ch c).ctl := by
      refine List.foldlRecOn (motive := fun u : State => KeepsDevice s u ∧ (u.ch c).ctl = (s.ch c).ctl) l _
        ⟨.refl s, rfl⟩ fun u hu w _ => ⟨hu.1.trans (keepsDevice_raiseWord ..), ?_⟩
      rw [raiseWord_eq_setCh, State.ch_setCh_same]
      exact hu.2
    obtain ⟨hdev, hctl⟩ := hraised
    rw [List.foldl_append, List.foldl_append, List.foldl_append, ih]
    generalize l.foldl (fun u w => raiseWord c field (cls w) u) s = u at hdev hctl ⊢
    generalize l.foldl (captureWord c slot k (wordErrorAt s c slot k) inhibited) s.capture = x
    obtain ⟨t, ht⟩ : ∃ t : State, t = { s.setCh c (checkedChannel cls offer num k l (u.ch c).rep (s.ch c)) with
      capture := x } := ⟨_, rfl⟩
    have hch : t.ch c = checkedChannel cls offer num k l (u.ch c).rep (s.ch c) := by
      rw [ht]; exact State.ch_setCh_same s c _
    have herr : wordErrorAt t c slot k = wordErrorAt s c slot k := by rw [ht]; rfl
    have hrep : ((raiseWord c field (cls w) (t.modCh c (countWord (cls w)))).ch c).rep =
        ((raiseWord c field (cls w) u).ch c).rep := by
      refine raiseWord_rep_congr ?_ ?_ ?_ field (cls w)
      · rw [State.ch_modCh_same, hch]; cases cls w <;> rfl
      · rw [State.ch_modCh_same, hch, hctl]; cases cls w <;> rfl
      · rw [State.loader_modCh, hdev.loader, ht]; rfl
    rw [← ht]
    simp only [List.foldl_cons, List.foldl_nil]
    rw [checkWord_eq (cls := cls w) (h := by rw [herr, hcls]), herr, raiseWord_eq_setCh, hrep, State.modCh_setCh,
      State.ch_modCh_same, hch, State.modCh_eq, State.setCh_setCh]
    have happend := checkedChannel_append cls offer num k l w (u.ch c).rep ((raiseWord c field (cls w) u).ch c).rep (s.ch c)
    dsimp only at happend ⊢
    rw [happend, ht]
    exact congrArg (fun y : State => { y with
      capture := captureWord c slot k (wordErrorAt s c slot k) inhibited x w }) (State.setCh_setCh s c _ _)

end

end Sys2Proof.Machine
end

section
/-! SUPPORT. The Error Capture record under the offers of a read burst (R57, R58). -/

namespace Sys2Proof.Machine

open Sys2Proof

/-! ### Offers in word order (R55 to R58) -/

section

variable {c : Chan} {slot : Fin 8} {k : Nat} {err : Nat → Option WordError} {inhibited : Nat → Bool} {w : Nat}
  {x : ErrorCapture}

/-- A word that its line's test finds double (R54). -/
def DoubleWord (err : Nat → Option WordError) (w : Nat) : Prop := ∃ e, err w = some e ∧ e.cls = .double

/-- A word offered the record: double, or single and not inhibited when it was read (R55, R56, R58). -/
def OfferedWord (err : Nat → Option WordError) (inhibited : Nat → Bool) (w : Nat) : Prop :=
  DoubleWord err w ∨ (inhibited w = false ∧ ∃ e, err w = some e ∧ e.cls = .single)

/-- A word not offered leaves the record. -/
theorem captureWord_not_offered (h : ¬ OfferedWord err inhibited w) : captureWord c slot k err inhibited x w = x := by
  unfold captureWord
  cases he : err w with
  | none => rfl
  | some e =>
    dsimp only
    split
    · rfl
    · next hcls =>
      rw [if_pos]
      by_contra hin
      exact h (.inr ⟨by simpa using hin, e, he, hcls⟩)
    · next hcls => exact absurd (.inl ⟨e, he, hcls⟩) h

/-- An offer to a record that is not CLEAR keeps place and syndrome (R57). -/
theorem captureWord_held (h : OfferedWord err inhibited w) (hx : x.state ≠ .clear) :
    captureWord c slot k err inhibited x w =
      { x with state := (captureWord c slot k err inhibited x w).state, later := true } ∧
    ((captureWord c slot k err inhibited x w).state = .double ↔ x.state = .double ∨ DoubleWord err w) ∧
    (captureWord c slot k err inhibited x w).state ≠ .clear := by
  obtain ⟨state, chan, slot', line, word, syndrome, later⟩ := x
  rcases h with ⟨e, he, hcls⟩ | ⟨hin, e, he, hcls⟩
  · have hdouble : DoubleWord err w := ⟨e, he, hcls⟩
    simp only [captureWord, he, hcls]
    cases state with
    | clear => exact absurd rfl hx
    | single => simp [offerCapture, hdouble]
    | double => simp [offerCapture]
  · have hsingle : ¬ DoubleWord err w := by
      rintro ⟨e', he', hcls'⟩
      rw [he] at he'
      obtain rfl := Option.some.inj he'
      rw [hcls] at hcls'
      cases hcls'
    simp only [captureWord, he, hcls, hin, Bool.false_eq_true, if_false, hsingle, or_false]
    cases state with
    | clear => exact absurd rfl hx
    | single => simp [offerCapture]
    | double => simp [offerCapture]

/-- An offer to a CLEAR record is taken (R57). -/
theorem captureWord_clear (h : OfferedWord err inhibited w) (hx : x.state = .clear) {e : WordError} (he : err w = some e) :
    ∃ state, captureWord c slot k err inhibited x w = ⟨state, c, slot, k, w, e.syndrome, false⟩ ∧
      (state = .double ↔ DoubleWord err w) ∧ state ≠ .clear := by
  have hclass : DoubleWord err w ↔ e.cls = .double := by
    unfold DoubleWord
    rw [he]
    simp
  rcases h with hdouble | ⟨hin, e', he', hcls⟩
  · have hcls := hclass.1 hdouble
    refine ⟨.double, ?_, by simp [hdouble], by simp⟩
    simp only [captureWord, he, hcls, offerCapture, hx]
  · rw [he] at he'
    obtain rfl := Option.some.inj he'
    refine ⟨.single, ?_, by simp [hclass, hcls], by simp⟩
    simp [captureWord, he, hcls, hin, offerCapture, hx]

end

section

variable {c : Chan} {slot : Fin 8} {k : Nat} {err : Nat → Option WordError} {inhibited : Nat → Bool}

theorem captureWords_not_offered {l : List Nat} (h : ∀ w ∈ l, ¬ OfferedWord err inhibited w) (x : ErrorCapture) :
    l.foldl (captureWord c slot k err inhibited) x = x :=
  List.foldlRecOn (motive := fun y => y = x) l _ rfl fun y hy w hw => by rw [captureWord_not_offered (h w hw), hy]

/-- Words offered to a record that is not CLEAR: it keeps place and syndrome, notes a later error, and is DOUBLE once it or a
word is (R57). -/
theorem captureWords_held (l : List Nat) {x : ErrorCapture} (hx : x.state ≠ .clear) :
    ∃ y, y = l.foldl (captureWord c slot k err inhibited) x ∧ y = { x with state := y.state, later := y.later } ∧
      (y.later = true ↔ x.later = true ∨ ∃ w ∈ l, OfferedWord err inhibited w) ∧
      (y.state = .double ↔ x.state = .double ∨ ∃ w ∈ l, DoubleWord err w) ∧ y.state ≠ .clear := by
  induction l using List.reverseRecOn with
  | nil => exact ⟨x, rfl, rfl, by simp, by simp, hx⟩
  | append_singleton l w ih =>
    obtain ⟨y, hy, heq, hlater, hstate, hclear⟩ := ih
    have hsplit : ∀ P : Nat → Prop, (∃ v ∈ l ++ [w], P v) ↔ (∃ v ∈ l, P v) ∨ P w := fun P => by
      simp only [List.mem_append, List.mem_singleton, or_and_right, exists_or, exists_eq_left]
    refine ⟨captureWord c slot k err inhibited y w, by rw [List.foldl_append, ← hy]; rfl, ?_⟩
    rw [hsplit, hsplit, ← or_assoc, ← or_assoc, ← hlater, ← hstate]
    by_cases hw : OfferedWord err inhibited w
    · obtain ⟨hheld, hdouble, hnot⟩ := captureWord_held (c := c) (slot := slot) (k := k) hw hclear
      generalize captureWord c slot k err inhibited y w = z at hheld hdouble hnot
      refine ⟨?_, by rw [hheld]; simp [hw], hdouble, hnot⟩
      rw [hheld, heq]
    · have hdouble : ¬ DoubleWord err w := fun h => hw (.inl h)
      rw [captureWord_not_offered hw]
      exact ⟨heq, by simp [hw], by simp [hdouble], hclear⟩

/-- The first word offered to a CLEAR record is taken, and those behind it find it held (R57). -/
theorem captureWords_first {l l' : List Nat} {w : Nat} {e : WordError} {x : ErrorCapture}
    (hl : ∀ v ∈ l, ¬ OfferedWord err inhibited v) (hw : OfferedWord err inhibited w) (he : err w = some e)
    (hx : x.state = .clear) :
    ∃ y, y = (l ++ w :: l').foldl (captureWord c slot k err inhibited) x ∧ y.chan = c ∧ y.slot = slot ∧ y.line = k ∧
      y.word = w ∧ y.syndrome = e.syndrome ∧ (y.later = true ↔ ∃ v ∈ l', OfferedWord err inhibited v) ∧
      (y.state = .double ↔ DoubleWord err w ∨ ∃ v ∈ l', DoubleWord err v) ∧ y.state ≠ .clear := by
  obtain ⟨state, htaken, hdouble, hnot⟩ := captureWord_clear (c := c) (slot := slot) (k := k) hw hx he
  obtain ⟨y, hy, heq, hlater, hstate, hclear⟩ := captureWords_held (c := c) (slot := slot) (k := k) (err := err)
    (inhibited := inhibited) l' (x := ⟨state, c, slot, k, w, e.syndrome, false⟩) hnot
  refine ⟨y, ?_, by rw [heq], by rw [heq], by rw [heq], by rw [heq], by rw [heq], by simpa using hlater,
    by rw [hstate, hdouble], hclear⟩
  rw [List.foldl_append, List.foldl_cons, captureWords_not_offered hl, htaken, hy]

end

/-! ### The record at the end of the burst -/

/-- The test of a line offers its words to the capture record in word order (R54 to R58). -/
theorem capture_checkWords (c : Chan) (slot : Fin 8) (k field num : Nat) (offer : Bool) (inhibited : Nat → Bool)
    (l : List Nat) (s : State) : (l.foldl (checkWord c slot k field num offer inhibited) s).capture =
      l.foldl (captureWord c slot k (wordErrorAt s c slot k) inhibited) s.capture := by
  induction l generalizing s with
  | nil => rfl
  | cons w l ih =>
    have hword := checkWord_eq c slot k field num offer inhibited s w rfl
    have hraise := keepsDevice_raiseWord c field (wordClass (wordErrorAt s c slot k) w)
      (s.modCh c (countWord (wordClass (wordErrorAt s c slot k) w)))
    have hcapture := congrArg State.capture hword
    have herrs : (checkWord c slot k field num offer inhibited s w).dramErrs = s.dramErrs :=
      (congrArg State.dramErrs hword).trans hraise.dramErrs
    have herr : wordErrorAt (checkWord c slot k field num offer inhibited s w) c slot k = wordErrorAt s c slot k := by
      unfold wordErrorAt
      rw [herrs]
    rw [List.foldl_cons, List.foldl_cons, ih, herr, hcapture]

/-- The Error Capture record at the completion of a read burst. -/
theorem capture_readDelivered (c : Chan) (slot : Fin 8) (k num : Nat) (live present : Bool) (strikes : List Strike)
    (read : List Nat) (s : State) : (readDelivered c slot k num live present strikes read s).capture =
      (List.range 240).foldl (captureWord c slot k (wordErrorAt (strikeLine c slot k strikes s) c slot k)
        (inhibitAt s.inhibitSingle s.inhibitBefore read)) s.capture := by
  have hcheck : (checkLine c slot k num live present read (strikeLine c slot k strikes s)).capture = _ :=
    capture_checkWords c slot k _ num (live && present) _ (List.range 240) (strikeLine c slot k strikes s)
  unfold readDelivered handLine
  generalize checkLine c slot k num live present read (strikeLine c slot k strikes s) = u at hcheck ⊢
  split <;> exact hcheck

/-- A read burst that completes is delivered, and the engine goes on (R51, R52). -/
theorem exec_readBurstComplete {c : Chan} {slot : Fin 8} {k : Nat} {role : Role} {num : Nat} {live present : Bool} {s : State}
    (h : s.arbiter.burst = some (.read c slot k role num live present)) (line : LineRead) :
    exec (.readBurstComplete line) s =
      .next (pumpEngine c (readDelivered c slot k num live present line.strikes line.read s)) := by
  show execReadBurstComplete line s = _
  unfold execReadBurstComplete
  rw [h]

/-- The 240 words of a line, split at one of them. -/
theorem range_split {n w : Nat} (h : w < n) : ∃ l l', List.range n = l ++ w :: l' ∧ (∀ v ∈ l, v < w) ∧
    ∀ v, v ∈ l' ↔ v < n ∧ w < v := by
  obtain ⟨l, l', hsplit⟩ := List.append_of_mem (List.mem_range.2 h)
  have hsorted := List.pairwise_lt_range (n := n)
  have hmem := fun v => List.mem_range (m := v) (n := n)
  rw [hsplit, List.pairwise_append, List.pairwise_cons] at hsorted
  rw [hsplit] at hmem
  simp only [List.mem_append, List.mem_cons] at hmem
  obtain ⟨-, ⟨hbehind, -⟩, hahead⟩ := hsorted
  have hlow : ∀ v ∈ l, v < w := fun v hv => hahead v hv w List.mem_cons_self
  refine ⟨l, l', hsplit, hlow, fun v => ⟨fun hv => ⟨(hmem v).1 (.inr (.inr hv)), hbehind v hv⟩, fun ⟨hn, hlt⟩ => ?_⟩⟩
  rcases (hmem v).2 hn with hv | rfl | hv
  · exact absurd (hlow v hv) (by omega)
  · omega
  · exact hv

/-- Settles O40: the burst's words offered to the record in word order. -/
theorem captureKeepsFirstError : Obligations.CaptureKeepsFirstError := by
  intro s c slot k role num live present strikes read err inhibited double offered hb herr hdouble hinhibited hoffered
  have hdbl : ∀ w, double w ↔ w < 240 ∧ DoubleWord err w := fun w => by rw [hdouble]; rfl
  have hoff : ∀ w, offered w ↔ w < 240 ∧ OfferedWord err inhibited w := fun w => by
    rw [hoffered]
    dsimp only
    rw [hdbl]
    unfold OfferedWord
    constructor
    · rintro (⟨hw, h⟩ | ⟨hin, hw, h⟩)
      · exact ⟨hw, .inl h⟩
      · exact ⟨hw, .inr ⟨hin, h⟩⟩
    · rintro ⟨hw, h | ⟨hin, h⟩⟩
      · exact .inl ⟨hw, h⟩
      · exact .inr ⟨hin, hw, h⟩
  have hcapture : (pumpEngine c (readDelivered c slot k num live present strikes read s)).capture =
      (List.range 240).foldl (captureWord c slot k err inhibited) s.capture := by
    rw [(keepsDevice_pumpEngine _ _).capture, capture_readDelivered, herr, hinhibited]
    rfl
  refine ⟨_, exec_readBurstComplete hb _, ?_⟩
  rw [hcapture]
  refine ⟨fun hnone => ?_, fun w e he hw hfirst hclear => ?_, fun ⟨w, hw⟩ hheld => ?_⟩
  · exact captureWords_not_offered (fun w hw h => hnone w ((hoff w).2 ⟨List.mem_range.1 hw, h⟩)) _
  · obtain ⟨hlt, hmine⟩ := (hoff w).1 hw
    obtain ⟨l, l', hsplit, hahead, hbehind⟩ := range_split hlt
    obtain ⟨y, hy, hchan, hslot, hline, hword, hsyndrome, hlater, hstate, hnot⟩ := captureWords_first (c := c) (slot := slot)
      (k := k) (l := l) (l' := l') (x := s.capture)
      (fun v hv h => hfirst v (hahead v hv) ((hoff v).2 ⟨(hahead v hv).trans hlt, h⟩)) hmine he hclear
    rw [hsplit, ← hy]
    refine ⟨hchan, hslot, hline, hword, hsyndrome, ?_, ?_, hnot⟩
    · rw [hlater]
      simp only [hbehind, hoff, and_assoc, and_left_comm]
    · rw [hstate]
      constructor
      · rintro (h | ⟨v, hv, h⟩)
        · exact ⟨w, (hdbl w).2 ⟨hlt, h⟩⟩
        · exact ⟨v, (hdbl v).2 ⟨((hbehind v).1 hv).1, h⟩⟩
      · rintro ⟨v, hv⟩
        obtain ⟨hv240, h⟩ := (hdbl v).1 hv
        rcases Nat.lt_trichotomy v w with hvw | rfl | hvw
        · exact absurd ((hoff v).2 ⟨hv240, .inl h⟩) (hfirst v hvw)
        · exact .inl h
        · exact .inr ⟨v, (hbehind v).2 ⟨hv240, hvw⟩, h⟩
  · obtain ⟨hlt, hmine⟩ := (hoff w).1 hw
    obtain ⟨y, hy, heq, hlater, hstate, hnot⟩ := captureWords_held (c := c) (slot := slot) (k := k) (err := err)
      (inhibited := inhibited) (List.range 240) hheld
    rw [← hy]
    refine ⟨by rw [heq], by rw [heq], by rw [heq], by rw [heq], by rw [heq],
      hlater.2 (.inr ⟨w, List.mem_range.2 hlt, hmine⟩), ?_, hnot⟩
    rw [hstate]
    simp only [List.mem_range, hdbl]

end Sys2Proof.Machine
end

section
/-! SUPPORT. What the engine's run and the arbiter's grant leave of each channel (R51, R87, R175), and the read burst that
completes (R52, R54 to R56). -/

namespace Sys2Proof.Machine

open Sys2Proof

/-! ### The engine's run with the grant behind it (R51, R87) -/

/-- A ring without its counts of lines stored, which a grant advances (R22). -/
def unstored (ring : List FieldRecord) : List FieldRecord := ring.map (fun r => { r with stored := 0 })

/-- All that the engine's run and a grant can move of a channel: its line buffer, its records' lines stored, its images, its
frame, its reports. -/
structure PumpMoves (old new : Channel) : Prop where
  eq   : new = { old with
           recv := { old.recv with buffer := new.recv.buffer }
           ring := new.ring, cad := new.cad, engine := new.engine, rep := new.rep }
  ring : unstored new.ring = unstored old.ring

theorem PumpMoves.refl (ch : Channel) : PumpMoves ch ch := ⟨rfl, rfl⟩

theorem PumpMoves.trans {x y z : Channel} (h : PumpMoves x y) (k : PumpMoves y z) : PumpMoves x z := by
  refine ⟨?_, k.ring.trans h.ring⟩
  rw [k.eq, h.eq]

theorem pumpMoves_grantWriteTo (ch : Channel) : PumpMoves ch (grantWriteTo ch) ∧ (grantWriteTo ch).rep = ch.rep := by
  unfold grantWriteTo
  split
  · refine ⟨⟨rfl, ?_⟩, rfl⟩
    unfold unstored modFilling
    rw [List.map_map]
    refine List.map_congr_left fun r _ => ?_
    dsimp only [Function.comp]
    split <;> rfl
  · exact ⟨.refl ch, rfl⟩

/-- The Sample Probe waits for no row of channel `c`. -/
def ProbedElsewhere (c : Chan) (s : State) : Prop := ∀ arm, s.probe = .armed arm → arm.chan ≠ c

/-- What the engine's run of channel `c` and a grant leave: no report but of `c`, and none there with the probe elsewhere. -/
structure PumpKeeps (c : Chan) (s t : State) : Prop where
  moves : ∀ e, PumpMoves (s.ch e) (t.ch e)
  rep   : ∀ e, e ≠ c ∨ ProbedElsewhere c s → (t.ch e).rep = (s.ch e).rep
  probe : ProbedElsewhere c s → t.probe = s.probe

section

variable {c : Chan} {s t u : State}

theorem PumpKeeps.refl (c : Chan) (s : State) : PumpKeeps c s s := ⟨fun _ => .refl _, fun _ _ => rfl, fun _ => rfl⟩

theorem PumpKeeps.trans (h : PumpKeeps c s t) (k : PumpKeeps c t u) : PumpKeeps c s u where
  moves e := (h.moves e).trans (k.moves e)
  rep e he := by
    refine (k.rep e (he.imp_right fun hs => ?_)).trans (h.rep e he)
    unfold ProbedElsewhere
    rw [h.probe hs]
    exact hs
  probe hs := by
    refine (k.probe ?_).trans (h.probe hs)
    unfold ProbedElsewhere
    rw [h.probe hs]
    exact hs

theorem pumpKeeps_modCh {d : Chan} {f : Channel → Channel} (hf : PumpMoves (s.ch d) (f (s.ch d)))
    (hrep : (f (s.ch d)).rep = (s.ch d).rep) : PumpKeeps c s (s.modCh d f) := by
  have hch : ∀ e, PumpMoves (s.ch e) ((s.modCh d f).ch e) ∧ ((s.modCh d f).ch e).rep = (s.ch e).rep := fun e => by
    by_cases he : e = d
    · subst he; rw [State.ch_modCh_same]; exact ⟨hf, hrep⟩
    · rw [State.ch_modCh_ne _ he]; exact ⟨.refl _, rfl⟩
  exact ⟨fun e => (hch e).1, fun e _ => (hch e).2, fun _ => rfl⟩

theorem pumpKeeps_arbitrate (c : Chan) (s : State) : PumpKeeps c s (arbitrate s) := by
  have hgrant : ∀ (v : State) (a : Arbiter), PumpKeeps c s v → PumpKeeps c s { v with arbiter := a } := fun _ _ h =>
    ⟨h.moves, h.rep, h.probe⟩
  rcases arbitrate_cases s with h | ⟨d, slot, l, -, -, h⟩ | ⟨d, src, role, k, -, -, -, h⟩ <;> rw [h]
  · exact .refl c s
  · obtain ⟨hmoves, hrep⟩ := pumpMoves_grantWriteTo (s.ch d)
    exact hgrant _ _ (pumpKeeps_modCh hmoves hrep)
  · exact hgrant _ _ (pumpKeeps_modCh (f := grantReadTo) ⟨rfl, rfl⟩ rfl)

/-- The probe takes its row, or stands (R175). -/
theorem pumpKeeps_probeRow (f : Frame) (r : Nat) (b : Built) : PumpKeeps c s (probeRow c f r b s) := by
  unfold probeRow
  cases hp : s.probe with
  | armed arm =>
    dsimp only
    split
    · next hhit =>
      have hnot : ¬ ProbedElsewhere c s := fun h => h arm hp hhit.2.1
      obtain ⟨v, hv⟩ : ∃ v : State, v = { s with probe := .captured arm (accountOf (s.ch c) f b) } := ⟨_, rfl⟩
      have hch : ∀ e, v.ch e = s.ch e := fun e => by rw [hv]; rfl
      rw [← hv, raise_eq_setCh]
      refine ⟨fun e => ?_, fun e he => ?_, fun h => absurd h hnot⟩
      · by_cases he : e = c
        · subst he; rw [State.ch_setCh_same, hch]; exact ⟨rfl, rfl⟩
        · rw [State.ch_setCh_ne _ he, hch]; exact .refl _
      · rw [State.ch_setCh_ne _ (he.resolve_right hnot), hch]
    · exact .refl c s
  | idle => exact .refl c s
  | captured arm x => exact .refl c s

/-- What the engine's run and the arbiter leave. -/
theorem pumpKeeps_pumpEngine (c : Chan) (s : State) : PumpKeeps c s (pumpEngine c s) := by
  refine pumpEngine_keeps (P := PumpKeeps c s) (fun t u h hu => ?_) (fun t u h hu => ?_)
    (fun t h => h.trans (pumpKeeps_arbitrate c t)) (.refl c s)
  · obtain ⟨f, sc, r, b, -, -, -, -, -, -, -, -, rfl⟩ := buildNext_cases hu
    exact h.trans ((pumpKeeps_modCh ⟨rfl, rfl⟩ rfl).trans (pumpKeeps_probeRow f r b))
  · obtain ⟨f, g, -, -, rfl⟩ := turnNext_cases hu
    exact h.trans (pumpKeeps_modCh ⟨rfl, rfl⟩ rfl)

end

/-! ### The line handed to the engine (R52, R56) -/

/-- A line holds a double word when the test of a word yields one (R54). -/
theorem hasDouble_iff (s : State) (c : Chan) (slot : Fin 8) (k : Nat) : hasDouble s c slot k = true ↔
    ∃ w ∈ List.range 240, wordClass (wordErrorAt s c slot k) w = .double := by
  unfold hasDouble wordClass
  rw [List.any_eq_true]
  refine exists_congr fun w => and_congr_right fun _ => ?_
  cases wordErrorAt s c slot k w <;> simp

/-- What the line handed over leaves: the engine has it when it still waits for it (R52). -/
def handedEngine (row : Option Row) (live : Bool) (e : Option Frame) : Option Frame :=
  if live then e.map (deliverLine row) else e

/-- A line's row depends on the DRAM and the stored errors. -/
theorem readLine_congr {s t : State} (hdram : t.dram = s.dram) (herrs : t.dramErrs = s.dramErrs) (c : Chan) (slot : Fin 8)
    (k : Nat) : readLine t c slot k = readLine s c slot k ∧ hasDouble t c slot k = hasDouble s c slot k := by
  have herr : wordErrorAt t c slot k = wordErrorAt s c slot k := by
    unfold wordErrorAt
    rw [herrs]
  unfold readLine hasDouble
  rw [herr, hdram]
  exact ⟨rfl, rfl⟩

/-- The state at the completion of a read burst, ahead of the engine (R52, R54 to R57). -/
theorem readDelivered_eq {c : Chan} {slot : Fin 8} {k num : Nat} {live present : Bool} {strikes : List Strike}
    {read : List Nat} {s : State} (hsingle : (s.ch c).stats.eccSingle ≤ 65535)
    (hdouble : (s.ch c).stats.eccDouble ≤ 65535) {cls : Nat → WordClass}
    (hcls : cls = wordClass (wordErrorAt (strikeLine c slot k strikes s) c slot k)) :
    ∃ rep capture, readDelivered c slot k num live present strikes read s =
      { s.setCh c { checkedChannel cls (live && present) num k (List.range 240) rep (s.ch c) with
          engine := handedEngine (if hasDouble (strikeLine c slot k strikes s) c slot k then none
            else some (readLine (strikeLine c slot k strikes s) c slot k)) live (s.ch c).engine } with
        dramErrs := (strikeLine c slot k strikes s).dramErrs
        arbiter := { s.arbiter with burst := none }
        capture := capture
        inhibitBefore := [] } ∧
      rep = (((List.range 240).foldl
        (fun u w => raiseWord c (readField (s.ch c) num present) (cls w) u) (strikeLine c slot k strikes s)).ch c).rep := by
  have hcheck := foldl_checkWord (s := strikeLine c slot k strikes s) (field := readField (s.ch c) num present) (num := num)
    (offer := live && present) (inhibited := inhibitAt s.inhibitSingle s.inhibitBefore read) hsingle hdouble cls hcls
    (List.range 240)
  generalize hrep : (((List.range 240).foldl (fun u w => raiseWord c (readField (s.ch c) num present) (cls w) u)
    (strikeLine c slot k strikes s)).ch c).rep = rep at hcheck
  generalize (List.range 240).foldl _ (strikeLine c slot k strikes s).capture = capture at hcheck
  refine ⟨rep, capture, ?_, rfl⟩
  obtain ⟨b, hb⟩ : ∃ b, b = strikeLine c slot k strikes s := ⟨_, rfl⟩
  obtain ⟨u, hu⟩ : ∃ u, u = checkLine c slot k num live present read b := ⟨_, rfl⟩
  have hchecked : u = { b.setCh c (checkedChannel cls (live && present) num k (List.range 240) rep (b.ch c)) with
      capture := capture } := by rw [hu, hb]; exact hcheck
  obtain ⟨hrow, hmark⟩ := readLine_congr (s := b) (t := u) (by rw [hchecked]; rfl) (by rw [hchecked]; rfl) c slot k
  unfold readDelivered
  rw [← hb, ← hu]
  unfold handLine handedEngine
  cases live with
  | false =>
    rw [if_neg Bool.false_ne_true, hchecked, hb]
    rfl
  | true =>
    rw [if_pos rfl]
    dsimp only
    rw [hrow, hmark]
    generalize (if hasDouble b c slot k = true then none else some (readLine b c slot k)) = row
    rw [hchecked, hb]
    have hset := State.modCh_setCh s c (checkedChannel cls (true && present) num k (List.range 240) rep (s.ch c))
      (fun ch => { ch with engine := ch.engine.map (deliverLine row) })
    have hall := congrArg (fun v : State => ({ v with
      dramErrs := (strikeLine c slot k strikes s).dramErrs, arbiter := { s.arbiter with burst := none }
      capture := capture, inhibitBefore := [] } : State)) hset
    exact hall

/-- Raises leave what later raises ask of a channel: reports that start alike end alike (R163, R170). -/
theorem raiseWords_rep_congr {c : Chan} (field : Nat) (cls : Nat → WordClass) (l : List Nat) {s t : State}
    (hrep : (t.ch c).rep = (s.ch c).rep) (hctl : (t.ch c).ctl = (s.ch c).ctl) (hload : t.loader = s.loader) :
    ((l.foldl (fun u w => raiseWord c field (cls w) u) t).ch c).rep =
      ((l.foldl (fun u w => raiseWord c field (cls w) u) s).ch c).rep := by
  have hkeeps : ∀ (w : Nat) (u : State), ((raiseWord c field (cls w) u).ch c).ctl = (u.ch c).ctl := fun w u => by
    rw [raiseWord_eq_setCh, State.ch_setCh_same]
  induction l generalizing s t with
  | nil => exact hrep
  | cons w l ih =>
    rw [List.foldl_cons, List.foldl_cons]
    refine ih (raiseWord_rep_congr hrep (by rw [hctl]) hload field (cls w)) ?_ ?_
    · rw [hkeeps, hkeeps, hctl]
    · rw [(keepsDevice_raiseWord c field (cls w) t).loader, (keepsDevice_raiseWord c field (cls w) s).loader, hload]

/-- The flag is set newly on an undamaged record of 16 other lines (R20, R37). -/
theorem newlyDamaged_iff (num k : Nat) (ring : List FieldRecord) : newlyDamaged num k ring = true ↔
    ∃ r, findRecord ring num = some r ∧ r.damaged = false ∧ (∀ d ∈ r.dropouts, d.line ≠ k) ∧ 16 ≤ r.dropouts.length := by
  unfold newlyDamaged
  cases findRecord ring num with
  | none => simp
  | some r => simp [offerToRecord_snd]

/-- The statistics of the requesting channel (R38, R55, R56). -/
theorem stats_checkedChannel (cls : Nat → WordClass) (offer : Bool) (num k : Nat) (l : List Nat) (rep : ReportPort)
    (ch : Channel) {offered : Bool} (ho : offered = (offer && l.any (fun w => decide (cls w = .double)))) :
    (checkedChannel cls offer num k l rep ch).stats = { ch.stats with
      eccSingle := min 65535 (ch.stats.eccSingle + l.countP (fun w => decide (cls w = .single)))
      eccDouble := min 65535 (ch.stats.eccDouble + l.countP (fun w => decide (cls w = .double)))
      damagedFields := if offered = true ∧ (∃ r, findRecord ch.ring num = some r ∧ r.damaged = false ∧
          (∀ d ∈ r.dropouts, d.line ≠ k) ∧ 16 ≤ r.dropouts.length) then min 65535 (ch.stats.damagedFields + 1)
        else ch.stats.damagedFields } := by
  subst ho
  unfold checkedChannel eccDamage
  simp only [← newlyDamaged_iff, Bool.and_eq_true]

/-- A word clean, or corrected, is delivered as it was written (R54). -/
theorem deliveredWord_corrected {v : Nat} (hv : v < 2 ^ 64) {err : Option WordError}
    (h : ∀ e, err = some e →
      (e.cls = .single ∧ e.flips = (match e.fix with | some i => BitVec.ofNat 64 (2 ^ i.val) | none => 0)) ∨
      (e.cls = .clean ∧ e.flips = 0)) : deliveredWord v err = v := by
  have hread : (BitVec.ofNat 64 v).toNat = v := by rw [BitVec.toNat_ofNat]; exact Nat.mod_eq_of_lt hv
  cases err with
  | none => rfl
  | some e =>
    have hcancel : e.flips ^^^ fixMask e = 0 := by
      unfold fixMask
      rcases h e rfl with ⟨hcls, hflips⟩ | ⟨hcls, hflips⟩ <;> rw [hcls, hflips]
      · cases e.fix <;> simp
      · cases e.fix <;> simp
    simp only [deliveredWord]
    rw [BitVec.xor_assoc, hcancel, BitVec.ofNat_eq_ofNat, BitVec.xor_zero, hread]

/-- A line of words clean or corrected reads as if no error were stored (R54). -/
theorem readLine_corrected {s : State} {c : Chan} {slot : Fin 8} {k : Nat}
    (h : ∀ w e, w < 240 → wordErrorAt s c slot k w = some e →
      (e.cls = .single ∧ e.flips = (match e.fix with | some i => BitVec.ofNat 64 (2 ^ i.val) | none => 0)) ∨
      (e.cls = .clean ∧ e.flips = 0)) : readLine s c slot k = readLine { s with dramErrs := [] } c slot k := by
  unfold readLine
  refine congrArg rowOfWords (lineSamples_congr (n := 240) (by simp [dramBlock]) fun j v hj hv => ?_)
  rw [Nat.zero_add]
  exact deliveredWord_corrected hv fun e he => h j e hj he

/-- A read burst's end moves the arbiter, and with none in flight nothing ends. -/
theorem exec_readBurstComplete_none {s : State}
    (h : ∀ c slot k role num live present, s.arbiter.burst ≠ some (.read c slot k role num live present)) (line : LineRead) :
    exec (.readBurstComplete line) s = .next s := by
  show execReadBurstComplete line s = _
  unfold execReadBurstComplete
  split
  · next hb => exact absurd hb (h _ _ _ _ _ _ _)
  · rfl

/-- What the completion of a read burst leaves ahead of the engine, item by item (R52, R54 to R57). -/
theorem readDelivered_leaves {c : Chan} {slot : Fin 8} {k num : Nat} {live present : Bool} {strikes : List Strike}
    {read : List Nat} {s u : State} (hsingle : (s.ch c).stats.eccSingle ≤ 65535)
    (hdouble : (s.ch c).stats.eccDouble ≤ 65535) {cls : Nat → WordClass}
    (hcls : cls = wordClass (wordErrorAt (strikeLine c slot k strikes s) c slot k))
    (hu : u = readDelivered c slot k num live present strikes read s) :
    (u.ch c = { checkedChannel cls (live && present) num k (List.range 240)
        (((List.range 240).foldl (fun u w => raiseWord c (readField (s.ch c) num present) (cls w) u) s).ch c).rep (s.ch c) with
      engine := handedEngine (if hasDouble (strikeLine c slot k strikes s) c slot k then none
        else some (readLine (strikeLine c slot k strikes s) c slot k)) live (s.ch c).engine }) ∧
    (∀ e, e ≠ c → u.ch e = s.ch e) ∧ u.arbiter.burst = none ∧ u.dramErrs = (strikeLine c slot k strikes s).dramErrs ∧
    u.dram = s.dram ∧ u.inhibitSingle = s.inhibitSingle ∧ u.inhibitBefore = [] ∧ u.tables = s.tables ∧
    u.loader = s.loader ∧ u.rtu = s.rtu ∧ u.probe = s.probe := by
  obtain ⟨rep, capture, heq, hrep⟩ := readDelivered_eq (c := c) (slot := slot) (k := k) (num := num) (live := live)
    (present := present) (strikes := strikes) (read := read) hsingle hdouble hcls
  rw [raiseWords_rep_congr (c := c) (s := s) (t := strikeLine c slot k strikes s) (readField (s.ch c) num present) cls
    (List.range 240) rfl rfl rfl] at hrep
  rw [heq, hrep] at hu
  rw [hu]
  exact ⟨State.ch_setCh_same s c _, fun e he => State.ch_setCh_ne s he _, rfl, rfl, rfl, rfl, rfl, rfl, rfl, rfl, rfl⟩

/-- Settles O39: the words tested, the line handed over, and what the engine then leaves. -/
theorem readErrorsCounted : Obligations.ReadErrorsCounted := by
  refine ⟨fun s h line => exec_readBurstComplete_none h line, ?_, fun s c slot k h => readLine_corrected h⟩
  intro s c slot k role num live present strikes read cls offered ring hb hsingle hdouble hcls hoffered hring
  replace hcls : cls = wordClass (wordErrorAt (strikeLine c slot k strikes s) c slot k) := hcls
  obtain ⟨u, hu⟩ : ∃ u, u = readDelivered c slot k num live present strikes read s := ⟨_, rfl⟩
  have hexec := exec_readBurstComplete hb ⟨strikes, read⟩
  obtain ⟨hsame, hother, hfree, herrs, hdram, hinhibit, hbefore, htables, hloader, hrtu, hprobe⟩ :=
    readDelivered_leaves hsingle hdouble hcls hu
  rw [← hu] at hexec
  have hcheckedRing : (u.ch c).ring = ring := by rw [hsame, hring, hoffered]; rfl
  have hctls : ∀ e, (u.ch e).ctl = (s.ch e).ctl ∧ (u.ch e).scaler = (s.ch e).scaler ∧ (u.ch e).pku = (s.ch e).pku := by
    intro e
    by_cases he : e = c
    · subst he; rw [hsame]; exact ⟨rfl, rfl, rfl⟩
    · rw [hother e he]; exact ⟨rfl, rfl, rfl⟩
  have hdev := keepsDevice_pumpEngine c u
  obtain ⟨hmoves, hrep, -⟩ := pumpKeeps_pumpEngine c u
  obtain ⟨t, ht⟩ : ∃ t, t = pumpEngine c u := ⟨_, rfl⟩
  rw [← ht] at hexec hdev hmoves hrep
  have hkept : ∀ e, (t.ch e).stats = (u.ch e).stats ∧ (t.ch e).ctl = (u.ch e).ctl ∧
      (t.ch e).scaler = (u.ch e).scaler ∧ (t.ch e).pku = (u.ch e).pku := fun e => by
    rw [(hmoves e).eq]; exact ⟨rfl, rfl, rfl, rfl⟩
  refine ⟨t, hexec, hdev.dram.trans hdram, hdev.inhibitSingle.trans hinhibit, hdev.inhibitBefore.trans hbefore,
    hdev.dramErrs.trans herrs, ?_, fun e he => ⟨?_, ?_, ?_⟩, fun e => ?_, hdev.tables.trans htables,
    hdev.loader.trans hloader, hdev.rtu.trans hrtu, ?_, fun hprobed => ?_, u, ht, hfree, hcheckedRing, hother,
    fun hlive => ?_, fun f hlive hf => ?_⟩
  · rw [(hkept c).1, hsame]
    exact stats_checkedChannel cls (live && present) num k (List.range 240) (s.ch c).rep (s.ch c) hoffered
  · rw [(hkept e).1, hother e he]
  · rw [hrep e (.inl he), hother e he]
  · rw [← hother e he]
    exact (hmoves e).ring
  · obtain ⟨-, h1, h2, h3⟩ := hkept e
    rw [h1, h2, h3]
    exact hctls e
  · rw [← hcheckedRing]
    exact (hmoves c).ring
  · have helsewhere : ProbedElsewhere c u := by
      unfold ProbedElsewhere
      rw [hprobe]
      exact hprobed
    rw [hrep c (.inr helsewhere), hsame]
    rfl
  · rw [hsame, hlive]
    rfl
  · have hdbl := hasDouble_iff (strikeLine c slot k strikes s) c slot k
    rw [← hcls] at hdbl
    rw [hsame, hlive]
    dsimp only [handedEngine]
    rw [hf]
    simp only [hdbl, if_true, Option.map_some]
    rfl

end Sys2Proof.Machine
end

section
/-! SUPPORT. An active line of a PICTURE frame: its window, the two passes that form it, and what the line leaves (R53, R89,
R105 to R113). -/

namespace Sys2Proof.Machine

open Sys2Proof

/-! ### The two passes, sample by sample (R106 to R110, R112) -/

/-- The rows the taps of a line read (R108). -/
theorem verticalRows_eq (x : ScalerFrame) (y : Nat) {place : Nat → Nat}
    (hplace : ∀ n, place n = x.bandFirst + TapAt x.bandCount (rasterHeight x.raster) y n) :
    verticalRows x y = (place 0, place 1, place 2, place 3) := by
  unfold verticalRows
  simp only [passTaps_eq, hplace]

/-- The intermediate row, filtered from four rows by the vertical set at the line's phase (R109, R110). -/
theorem verticalPass_samples (x : ScalerFrame) (y : Nat) (rows : Nat → Row) {phase : Nat} {middle : Row}
    (hphase : phase = PhaseAt x.bandCount (rasterHeight x.raster) y)
    (hmiddle : middle = verticalPass x y (rows 0) (rows 1) (rows 2) (rows 3)) :
    (∀ i, i < 720 → middle.y.getD i 0 = FilterAt 940 x.vcoefs phase (fun n => (rows n).y.getD i 0)) ∧
    (∀ j, j < 360 → middle.cb.getD j 0 = FilterAt 960 x.vcoefs phase (fun n => (rows n).cb.getD j 0) ∧
      middle.cr.getD j 0 = FilterAt 960 x.vcoefs phase (fun n => (rows n).cr.getD j 0)) := by
  subst hmiddle
  subst hphase
  unfold verticalPass
  rw [positionPhase_eq]
  refine ⟨fun i hi => (getD_tabulate _ hi).trans ?_, fun j hj => ⟨(getD_tabulate _ hj).trans ?_,
    (getD_tabulate _ hj).trans ?_⟩⟩
  · exact filterLuma_eq x.vcoefs _ (fun n => (rows n).y.getD i 0)
  · exact filterChroma_eq x.vcoefs _ (fun n => (rows n).cb.getD j 0)
  · exact filterChroma_eq x.vcoefs _ (fun n => (rows n).cr.getD j 0)

/-- A component resampled, each sample at its own phase by a filter that is R109's (R112). -/
theorem horizontalComponent_sample {image : List Byte} {hi : Nat}
    {filter : Int → Int → Int → Int → Nat → Nat → Nat → Nat → Nat}
    (hfilter : ∀ (ph : Nat) (v : Nat → Nat), filter (coefOf image ph 0) (coefOf image ph 1) (coefOf image ph 2)
      (coefOf image ph 3) (v 0) (v 1) (v 2) (v 3) = FilterAt hi image ph v)
    {src dst k : Nat} (a : Array Nat) (hk : k < dst) : (horizontalComponent image src dst filter a).getD k 0 =
      FilterAt hi image (PhaseAt src dst k) (fun n => a.getD (TapAt src dst k n) 0) := by
  refine (getD_tabulate _ hk).trans ?_
  simp only [positionPhase_eq, passTaps_eq]
  exact hfilter _ (fun n => a.getD (TapAt src dst k n) 0)

/-- A window, filtered from the intermediate row by the horizontal set (R109, R112). -/
theorem horizontalPass_samples (x : ScalerFrame) (middle : Row) {width : Nat}
    (hwidth : width = (activeWindow x.aspect x.raster).2) :
    (∀ k, k < width → (horizontalPass x middle).y.getD k 0 =
      FilterAt 940 x.hcoefs (PhaseAt 720 width k) (fun n => middle.y.getD (TapAt 720 width k n) 0)) ∧
    (∀ j, j < width / 2 →
      (horizontalPass x middle).cb.getD j 0 = FilterAt 960 x.hcoefs (PhaseAt 360 (width / 2) j)
        (fun n => middle.cb.getD (TapAt 360 (width / 2) j n) 0) ∧
      (horizontalPass x middle).cr.getD j 0 = FilterAt 960 x.hcoefs (PhaseAt 360 (width / 2) j)
        (fun n => middle.cr.getD (TapAt 360 (width / 2) j n) 0)) := by
  subst hwidth
  exact ⟨fun k hk => horizontalComponent_sample (filterLuma_eq x.hcoefs) middle.y hk,
    fun j hj => ⟨horizontalComponent_sample (filterChroma_eq x.hcoefs) middle.cb hj,
      horizontalComponent_sample (filterChroma_eq x.hcoefs) middle.cr hj⟩⟩

/-! ### A line formed, or not (R53, R110) -/

section

variable {x : ScalerFrame} {f : Frame} {y : Nat} {place : Nat → Nat}

theorem formLine_of_rows (hplace : ∀ n, place n = x.bandFirst + TapAt x.bandCount (rasterHeight x.raster) y n)
    {rows : Nat → Row} (h : ∀ n, n < 4 → cachedRow f (place n) = some (rows n)) :
    formLine x f y = some (horizontalPass x (verticalPass x y (rows 0) (rows 1) (rows 2) (rows 3))) := by
  unfold formLine
  rw [verticalRows_eq x y hplace]
  dsimp only
  rw [h 0 (by omega), h 1 (by omega), h 2 (by omega), h 3 (by omega)]

theorem formLine_of_missing (hplace : ∀ n, place n = x.bandFirst + TapAt x.bandCount (rasterHeight x.raster) y n)
    (h : ∃ n, n < 4 ∧ cachedRow f (place n) = none) : formLine x f y = none := by
  obtain ⟨n, hn, hnone⟩ := h
  unfold formLine
  rw [verticalRows_eq x y hplace]
  dsimp only
  split
  · next h0 h1 h2 h3 =>
    obtain rfl | rfl | rfl | rfl : n = 0 ∨ n = 1 ∨ n = 2 ∨ n = 3 := by omega
    · simp [hnone] at h0
    · simp [hnone] at h1
    · simp [hnone] at h2
    · simp [hnone] at h3
  · rfl

end

/-! ### The line's place in its frame, and what it emits (R53, R89, R104, R105) -/

/-- The active window of line `y` (R53, R89, R110): formed, or that of the previous line, black for line 0; black with the
frame abandoned. -/
def pictureWindow (x : ScalerFrame) (y : Nat) (engine : Option Frame) : Row :=
  match x.abandoned, engine with
  | false, some f => (formLine x f y).getD (x.prevLine.getD (blackWindow x))
  | _, _ => blackWindow x

section

variable {x : ScalerFrame} {y : Nat} (device : BitVec 4) (ch : Channel)

/-- A line period at output line `y` is that active line (R104). -/
theorem linePeriod_active (hp : x.period = firstPeriod x.raster + y) (hy : y < rasterHeight x.raster) :
    linePeriod device x ch = activePeriod x y ch := by
  have hreport : inReportWindow x.raster x.period = false := by unfold inReportWindow; simp; omega
  have hline : outputLineOf x.raster x.period = some y := by
    unfold outputLineOf
    rw [if_pos (by omega)]
    congr 1
    omega
  unfold linePeriod
  rw [hreport, hline]
  rfl

/-- Abandoned, or without its engine, a frame shows black in its window (R89). -/
theorem activePeriod_black (hkind : x.kind = .picture) (h : x.abandoned = true ∨ ch.engine = none) :
    activePeriod x y ch = emitActive y (blackWindow x) (fillAround x (blackWindow x)) x ch ∧
    pictureWindow x y ch.engine = blackWindow x := by
  unfold activePeriod pictureWindow
  rw [hkind]
  cases ha : x.abandoned with
  | true => exact ⟨rfl, rfl⟩
  | false =>
    rw [h.resolve_left (by simp [ha])]
    exact ⟨rfl, rfl⟩

/-- With its engine at work a line is formed or underruns (R53). -/
theorem activePeriod_engine (hkind : x.kind = .picture) (ha : x.abandoned = false) {f : Frame} (he : ch.engine = some f) :
    activePeriod x y ch = picturePeriod x f y ch ∧
    pictureWindow x y ch.engine = (formLine x f y).getD (x.prevLine.getD (blackWindow x)) := by
  unfold activePeriod pictureWindow
  rw [hkind, ha, he]
  exact ⟨rfl, rfl⟩

/-- What an active line of a PICTURE frame emits, and its frame context (R53, R105, R113). -/
theorem activePeriod_emits (hkind : x.kind = .picture) :
    (activePeriod x y ch).out = some (.active (fillAround x (pictureWindow x y ch.engine))) ∧
    (activePeriod x y ch).scaler = some { x with
      nextLine := y + 1, prevLine := some (pictureWindow x y ch.engine), period := x.period + 1 } := by
  by_cases h : x.abandoned = true ∨ ch.engine = none
  · obtain ⟨heq, hblack⟩ := activePeriod_black (y := y) ch hkind h
    rw [heq, hblack]
    exact ⟨rfl, rfl⟩
  · obtain ⟨ha, he⟩ := not_or.1 h
    obtain ⟨f, hf⟩ := Option.ne_none_iff_exists'.1 he
    obtain ⟨heq, hformed⟩ := activePeriod_engine (y := y) ch hkind (by simpa using ha) hf
    rw [heq, hformed]
    exact ⟨rfl, rfl⟩

end

/-- The rows that stay built after line `y` (R111). -/
theorem releaseRows_after (x : ScalerFrame) (y : Nat) (f : Frame) : releaseRows { x with nextLine := y + 1 } f = { f with
    cache := f.cache.filter (fun e => decide (LowestRow x (y + 1) ≤ e.1) && decide (e.1 < x.bandFirst + x.bandCount)) } := by
  unfold releaseRows
  simp only [rowAwaited_eq]
  rfl

/-- A channel in a frame emits its line, and the engine goes on (R104, R111). -/
theorem exec_outputLinePeriod {c : Chan} {s : State} {x : ScalerFrame} (h : (s.ch c).scaler = some x) :
    exec (.outputLinePeriod c) s = .next (pumpEngine c (s.modCh c (linePeriod s.deviceAddress x))) := by
  show execOutputLinePeriod c s = _
  unfold execOutputLinePeriod
  rw [h]

/-- Settles O48: the line's window by the engine and the rows built, and what the engine's run then leaves. -/
theorem pictureLineEmitted : Obligations.PictureLineEmitted := by
  intro c s x y first width left total height hx hkind hraster hperiod hy hwindow
  have hsizes : (first, total, height) = (firstPeriod x.raster, rasterWidth x.raster, rasterHeight x.raster) := by
    rw [hraster]
    cases x.raster <;> rfl
  obtain ⟨rfl, rfl, rfl⟩ : first = firstPeriod x.raster ∧ total = rasterWidth x.raster ∧ height = rasterHeight x.raster :=
    ⟨congrArg Prod.fst hsizes, congrArg (·.2.1) hsizes, congrArg (·.2.2) hsizes⟩
  obtain ⟨rfl, rfl⟩ : left = (activeWindow x.aspect x.raster).1 ∧ width = (activeWindow x.aspect x.raster).2 := by
    rw [← hwindow]; exact ⟨rfl, rfl⟩
  obtain ⟨u, hu⟩ : ∃ u, u = s.modCh c (linePeriod s.deviceAddress x) := ⟨_, rfl⟩
  have hexec := exec_outputLinePeriod hx
  rw [← hu] at hexec
  have hline : u.ch c = activePeriod x y (s.ch c) := by
    rw [hu, State.ch_modCh_same]; exact linePeriod_active _ _ hperiod hy
  have hother : ∀ e, e ≠ c → u.ch e = s.ch e := fun e he => by rw [hu]; exact State.ch_modCh_ne s he _
  have hmoves := (pumpKeeps_pumpEngine c u).moves c
  obtain ⟨t, ht⟩ : ∃ t, t = pumpEngine c u := ⟨_, rfl⟩
  rw [← ht] at hexec hmoves
  have hkept : (t.ch c).out = (u.ch c).out ∧ (t.ch c).scaler = (u.ch c).scaler ∧ (t.ch c).stats = (u.ch c).stats := by
    rw [hmoves.eq]; exact ⟨rfl, rfl, rfl⟩
  rw [hline] at hkept
  obtain ⟨hout, hscaler, hstats⟩ := hkept
  obtain ⟨hemits, hcontext⟩ := activePeriod_emits (y := y) (s.ch c) hkind
  refine ⟨t, _, pictureWindow x y (s.ch c).engine, hexec, hout.trans hemits, windowLine_around ..,
    ⟨_, hscaler.trans hcontext, rfl, rfl⟩, fun h => ?_,
    fun f place ha he hplace => ⟨⟨u, ht, hother, ?_⟩, fun rows hrows => ?_, fun hmissing => ?_⟩⟩
  · obtain ⟨heq, hblack⟩ := activePeriod_black (y := y) (s.ch c) hkind h
    exact ⟨hblack, hstats.trans (by rw [heq]; rfl)⟩
  · rw [hline, (activePeriod_engine (y := y) (s.ch c) hkind ha he).1, ← releaseRows_after]
    rfl
  · obtain ⟨heq, hformed⟩ := activePeriod_engine (y := y) (s.ch c) hkind ha he
    have hform := formLine_of_rows hplace hrows
    obtain ⟨middle, hmiddle⟩ : ∃ m, m = verticalPass x y (rows 0) (rows 1) (rows 2) (rows 3) := ⟨_, rfl⟩
    obtain ⟨hluma, hchroma⟩ := verticalPass_samples x y rows rfl hmiddle
    rw [← hmiddle] at hform
    rw [hstats, heq, hformed, hform]
    refine ⟨?_, middle, _, rfl, hluma, hchroma, horizontalPass_samples x middle rfl⟩
    unfold picturePeriod
    rw [hform]
    rfl
  · obtain ⟨heq, hformed⟩ := activePeriod_engine (y := y) (s.ch c) hkind ha he
    have hform := formLine_of_missing hplace hmissing
    rw [hstats, heq, hformed, hform]
    refine ⟨rfl, ?_⟩
    unfold picturePeriod
    rw [hform]
    rfl

end Sys2Proof.Machine
end

section
/-! SUPPORT. A valid field start (R12 to R15, R24, R25, R33 to R36, R61, R138): the record's slot, the reclaim of a full ring,
and the closing of a field in progress. -/

namespace Sys2Proof.Machine

open Sys2Proof

/-! ### The slot, the reclaim and the forced drop (R33 to R35) -/

/-- Every slot below the lowest free one is taken (R33). -/
theorem lowestFreeSlot_below {ring : List FieldRecord} {i : Fin 8} (h : i < lowestFreeSlot ring) :
    ∃ r ∈ ring, r.slot = i := by
  unfold lowestFreeSlot at h
  cases hf : allSlots.find? (fun i => !ring.any (fun r => r.slot == i)) with
  | none =>
    rw [hf] at h
    exact absurd h (Nat.not_lt_zero _)
  | some j =>
    rw [hf] at h
    obtain ⟨-, as, bs, hsplit, hskipped⟩ := List.find?_eq_some_iff_append.1 hf
    have hsorted : allSlots.Pairwise (· < ·) := by decide
    have hall : ∀ i : Fin 8, i ∈ allSlots := by decide
    have hmem := hall i
    rw [hsplit] at hsorted hmem
    rw [List.pairwise_append, List.pairwise_cons] at hsorted
    obtain ⟨-, ⟨hbehind, -⟩, -⟩ := hsorted
    have hahead : i ∈ as := by
      rcases List.mem_append.1 hmem with ha | hb
      · exact ha
      · rcases List.mem_cons.1 hb with rfl | hb
        · exact absurd h (lt_irrefl _)
        · exact absurd (hbehind i hb) (not_lt_of_gt h)
    simpa using hskipped i hahead

/-- A slot that a ring of fewer than 8 records leaves free, every lower one taken (R33). -/
theorem lowestFreeSlot_spec {ring : List FieldRecord} (h : ring.length < 8) :
    (∀ r ∈ ring, r.slot ≠ lowestFreeSlot ring) ∧ ∀ i, i < lowestFreeSlot ring → ∃ r ∈ ring, r.slot = i :=
  ⟨fun r hr he => lowestFreeSlot_notMem h (List.mem_map.2 ⟨r, hr, he⟩), fun _ hi => lowestFreeSlot_below hi⟩

/-- The images kept are those of the records that stay (R62). -/
theorem findRecord_isSome (ring : List FieldRecord) (num : Nat) :
    (findRecord ring num).isSome = ring.any (fun x => x.num == num) := by
  rw [Bool.eq_iff_iff]
  unfold findRecord
  simp

section

variable {c : Chan} {s : State}

/-- A full ring loses its oldest unpinned record, a forced drop when it was still available (R34, R35). -/
theorem reclaim_full {pre post : List FieldRecord} {r : FieldRecord} (hfull : (s.ch c).ring.length = 8)
    (hring : (s.ch c).ring = pre ++ r :: post) (hpre : ∀ x ∈ pre, x.pinned = true) (hr : r.pinned = false) :
    reclaim c s = if availableAfter (s.ch c).ctl.lastOutput r.num then forcedDrop c r.num (removeFromRing c (pre ++ post) s)
      else removeFromRing c (pre ++ post) s := by
  have holdest : oldestUnpinned (s.ch c).ring = some r := by
    unfold oldestUnpinned
    rw [hring, List.find?_append, List.find?_eq_none.2 (fun x hx => by simp [hpre x hx]), Option.none_or,
      List.find?_cons_of_pos (by simp [hr])]
  have herase : (s.ch c).ring.erase r = pre ++ post := by
    have hmem : r ∉ pre := fun h => by simpa [hr] using hpre r h
    rw [hring, List.erase_append_right _ hmem, List.erase_cons_head]
  unfold reclaim
  rw [if_pos (by omega), holdest]
  dsimp only
  rw [herase]

/-- A forced drop: its count and its event (R35). -/
theorem forcedDrop_ch (n : Nat) : (forcedDrop c n s).ch c = { s.ch c with
    rep := ((raise c .slipDrop n s).ch c).rep
    stats := { (s.ch c).stats with fieldsDropped := min 65535 ((s.ch c).stats.fieldsDropped + 1) } } := by
  obtain ⟨v, hv⟩ : ∃ v : State, v = s.modCh c (fun ch =>
    { ch with stats := { ch.stats with fieldsDropped := satAdd ch.stats.fieldsDropped 1 } }) := ⟨_, rfl⟩
  have hch : v.ch c = { s.ch c with
      stats := { (s.ch c).stats with fieldsDropped := satAdd (s.ch c).stats.fieldsDropped 1 } } := by
    rw [hv, State.ch_modCh_same]
  have hrep : ((raise c .slipDrop n v).ch c).rep = ((raise c .slipDrop n s).ch c).rep :=
    raise_rep_congr (by rw [hch]) (by rw [hch]) (by rw [hv]; rfl) _ _
  unfold forcedDrop
  rw [← hv, raise_ch_same, hrep, hch]
  rfl

theorem reclaim_ch_ne {e : Chan} (h : e ≠ c) : (reclaim c s).ch e = s.ch e := by
  unfold reclaim forcedDrop
  split
  · split
    · rfl
    · dsimp only
      split
      · rw [raise_ch_ne _ _ h, State.ch_modCh_ne _ h, removeFromRing_ch_ne _ _ h]
      · exact removeFromRing_ch_ne _ _ h _
  · rfl

/-- The images kept when the ring becomes `ring`, and one opened for the record of number `num` (R61, R62, R63). -/
def openedImages (num : Nat) (field : FieldParams) (ring : List FieldRecord) (images : List Image) : List Image :=
  let kept := images.filter (fun i => ring.any (fun x => x.num == i.num))
  (if 3 ≤ kept.length then kept.drop 1 else kept) ++ [⟨num, field, []⟩]

/-- A field start accepted by a full ring (R15, R34, R35, R61, R138). -/
theorem acceptField_full {pre post : List FieldRecord} {r : FieldRecord} {num : Nat} {field : FieldParams}
    (hstopped : (s.ch c).ctl.state ≠ .stopped) (hlost : (s.ch c).ctl.state ≠ .lost) (hfull : (s.ch c).ring.length = 8)
    (hring : (s.ch c).ring = pre ++ r :: post) (hpre : ∀ x ∈ pre, x.pinned = true) (hr : r.pinned = false)
    (hnum : num = (s.ch c).fieldCount) (hfield : field = (s.ch c).ctl.pendingField.getD (s.ch c).ctl.field) :
    (acceptField c none s).ch c = { s.ch c with
      recv := { (s.ch c).recv with accepted := true }
      fieldCount := nextField num
      ring := pre ++ post ++ [newRecord num (lowestFreeSlot (pre ++ post)) ((s.ch c).recv.latestOffset.getD 0) none]
      cad := { (s.ch c).cad with images := openedImages num field (pre ++ post) (s.ch c).cad.images }
      ctl := { (s.ch c).ctl with field := field, pendingField := none }
      stats := { (s.ch c).stats with
        fieldsReceived := min 65535 ((s.ch c).stats.fieldsReceived + 1)
        fieldsDropped := if availableAfter (s.ch c).ctl.lastOutput r.num then min 65535 ((s.ch c).stats.fieldsDropped + 1)
          else (s.ch c).stats.fieldsDropped }
      rep := if availableAfter (s.ch c).ctl.lastOutput r.num then ((raise c .slipDrop r.num s).ch c).rep
        else (s.ch c).rep } := by
  subst hnum hfield
  obtain ⟨v, hv⟩ : ∃ v : State, v = s.modCh c (fun ch => fieldValuesInForce (countAccepted false ch)) := ⟨_, rfl⟩
  have hcounted : v.ch c = fieldValuesInForce (countAccepted false (s.ch c)) := by rw [hv, State.ch_modCh_same]
  obtain ⟨y, hy⟩ : ∃ y : State, y = removeFromRing c (pre ++ post) v := ⟨_, rfl⟩
  have hremoved : y.ch c = withRing (pre ++ post) (fieldValuesInForce (countAccepted false (s.ch c))) := by
    rw [hy, removeFromRing_ch, State.ch_modCh_same, hcounted]
  have hrep : ((raise c .slipDrop r.num y).ch c).rep = ((raise c .slipDrop r.num s).ch c).rep :=
    raise_rep_congr (by rw [hremoved]; rfl) (by rw [hremoved]; rfl) (by rw [hy, hv]; rfl) _ _
  have hroom : roomMade c none s = if availableAfter (s.ch c).ctl.lastOutput r.num then forcedDrop c r.num y else y := by
    have hlast : (v.ch c).ctl.lastOutput = (s.ch c).ctl.lastOutput := by rw [hcounted]; rfl
    have hstands : (v.ch c).ring = (s.ch c).ring := by rw [hcounted]; rfl
    have hreclaim := reclaim_full (c := c) (s := v) (by rw [hstands]; exact hfull) (by rw [hstands]; exact hring) hpre hr
    rw [hlast, ← hy] at hreclaim
    unfold roomMade
    dsimp only
    rw [if_neg hlost, ← hreclaim, hv]
    rfl
  have hkept : (withRing (pre ++ post) (s.ch c)).cad.images =
      (s.ch c).cad.images.filter (fun i => (pre ++ post).any (fun x => x.num == i.num)) := by
    simp only [withRing, findRecord_isSome]
  rw [acceptField_writing none hstopped, State.ch_modCh_same, hroom]
  unfold openedImages
  rw [← hkept]
  by_cases havailable : availableAfter (s.ch c).ctl.lastOutput r.num = true
  · rw [if_pos havailable, if_pos havailable, if_pos havailable, forcedDrop_ch, hrep, hremoved]
    rfl
  · rw [if_neg havailable, if_neg havailable, if_neg havailable, hremoved]
    rfl

/-- A field start accepted by a channel that is not LOST leaves the other channels (R15, R34). -/
theorem acceptField_ch_ne (hstopped : (s.ch c).ctl.state ≠ .stopped) (hlost : (s.ch c).ctl.state ≠ .lost) {e : Chan}
    (h : e ≠ c) : (acceptField c none s).ch e = s.ch e := by
  rw [acceptField_writing none hstopped, State.ch_modCh_ne _ h]
  unfold roomMade
  dsimp only
  rw [if_neg hlost, reclaim_ch_ne h, State.ch_modCh_ne _ h]

end

/-! ### A field begun in SEEKING (R12, R15) -/

/-- A channel item set behind a field's beginning (R12). -/
theorem begunState_setCh (c : Chan) (dt : Nat) (w : TimingWord) (rep : ReportPort) (s : State) (x : Channel) :
    (begunState c dt w rep s).setCh c x = { s.setCh c x with now := s.now + dt } :=
  congrArg (fun t : State => { t with now := s.now + dt }) (State.setCh_setCh s c _ x)

/-- A channel with room accepts its field (R4, R15, R30, R34, R61, R138). -/
theorem acceptField_begun_room {c : Chan} {dt : Nat} {w : TimingWord} {s : State}
    (hstopped : (s.ch c).ctl.state ≠ .stopped) (hlost : (s.ch c).ctl.state ≠ .lost) (hroom : (s.ch c).ring.length < 8) :
    acceptField c none (begunState c dt w (s.ch c).rep s) = { s.setCh c (acceptedChannel none id { s.ch c with
      recv := begunRecv w (s.ch c).ctl.format.standard (arrivalOffset { s with now := s.now + dt }) (s.ch c).recv }) with
      now := s.now + dt } := by
  have hch := begunState_ch_same c dt w (s.ch c).rep s
  rw [acceptField_room none (by rw [hch]; exact hstopped) (by rw [hch]; exact hlost) (by rw [hch]; exact hroom), hch,
    begunState_setCh]

/-! ### The field in progress closed first (R14) -/

theorem endLine_lossCount (line : LineIn) (ch : Channel) : (endLine line ch).recv.lossCount = ch.recv.lossCount := by
  have hhand : (handOn line ch).recv = ch.recv := by
    unfold handOn
    cases windowWords ch.recv.fieldStd line with
    | nil => rfl
    | cons w ws => dsimp only; split <;> rfl
  unfold endLine
  split
  · rw [hhand]
  · split
    · split
      · rw [judgeLine_eq]
        dsimp only [bufferedRecv, receiveLine]
      · dsimp only [emptyAssembly, receiveLine]
    · rfl

/-- The closing of a field leaves the loss count (R14). -/
theorem fieldClosed_lossCount {c : Chan} {a u : State} (h : FieldClosed c a u) :
    (u.ch c).recv.lossCount = (a.ch c).recv.lossCount := by
  obtain ⟨hidle, haccepted⟩ := h
  cases hacc : (a.ch c).recv.accepted with
  | false => rw [hidle hacc]
  | true =>
    obtain ⟨e, -, voted, ring, stats, -, rfl, -, -, hu, -⟩ := haccepted hacc
    obtain ⟨ring', cad, rep, locks, losses, hend⟩ := cadenceFieldEnd_eq_setCh c (a.setCh c { a.ch c with
      recv := { (a.ch c).recv with
        buffer := [], voteClosed := true
        prevParity := if (a.ch c).recv.voteClosed = true then (a.ch c).recv.prevParity else some voted.1 }
      ring := ring, stats := stats })
    rw [hu, hend, State.ch_setCh_same, State.ch_setCh_same]

/-- A field begun at a valid word with the loss count at 0, as from SEEKING (R12). -/
theorem startField_as_seeking {c : Chan} {w : TimingWord} (line : LineIn) {u : State} (hv : w.valid = true)
    (hf : w.fieldStart = true) (hloss : (u.ch c).recv.lossCount = 0) :
    Host.Outcome.next (startField c w u) = exec (.timingWord c 0 w line)
      (u.modCh c (fun ch => { ch with recv := { ch.recv with state := .seeking } })) := by
  have hclear : clearLossCount w (u.ch c) = u.ch c := by
    rw [clearLossCount_eq]
    unfold clearedRecv
    rw [if_pos hv, ← hloss]
  have hbegun := beginField_valid hv (arrivalOffset u) (u.ch c)
  rw [hclear] at hbegun
  obtain ⟨valid, fieldStart, p⟩ := w
  obtain rfl : valid = true := hv
  obtain rfl : fieldStart = true := hf
  rw [exec_timingWord_validStart]
  unfold startField validStart
  rw [State.modCh_eq, hbegun]

/-- A valid field start in a field: the field is closed, and the new one begins (R12, R14). -/
theorem exec_timingWord_inField {c : Chan} {dt : Nat} {w : TimingWord} {line : LineIn} {s a : State}
    (hin : (s.ch c).recv.state = .inField) (hv : w.valid = true) (hf : w.fieldStart = true)
    (ha : a = arbitrate { s.setCh c (endLine line { s.ch c with recv := { (s.ch c).recv with lossCount := 0 } }) with
      now := s.now + dt }) :
    ∃ u, FieldClosed c a u ∧ exec (.timingWord c dt w line) s = exec (.timingWord c 0 w line)
      (u.modCh c (fun ch => { ch with recv := { ch.recv with state := .seeking } })) := by
  obtain ⟨s', hs'⟩ : ∃ s' : State, s' = ({ s with now := s.now + dt } : State).modCh c (clearLossCount w) := ⟨_, rfl⟩
  have hmine : s'.ch c = { s.ch c with recv := { (s.ch c).recv with lossCount := 0 } } := by
    rw [hs', State.ch_modCh_same, clearLossCount_eq]
    unfold clearedRecv
    rw [if_pos hv]
    rfl
  have hjudged : a = arbitrate (s'.modCh c (endLine line)) := by
    rw [ha, State.modCh_eq, hmine, hs', State.modCh_eq]
    exact congrArg arbitrate (congrArg (fun t : State => { t with now := s.now + dt }) (State.setCh_setCh s c _ _).symm)
  have hclosed := fieldClosed_closeField c line hjudged
  have hloss : (a.ch c).recv.lossCount = 0 := by
    have hgrant := grantMoves_arbitrate (s'.modCh c (endLine line)) c
    rw [State.ch_modCh_same, ← hjudged] at hgrant
    rw [hgrant.eq]
    exact (endLine_lossCount line _).trans (by rw [hmine])
  have hexec : exec (.timingWord c dt w line) s = .next (startField c w (closeField c line s')) := by
    show Host.Outcome.next (lineStart c w line (({ s with now := s.now + dt } : State).modCh c (clearLossCount w))) = _
    unfold lineStart
    rw [← hs', hmine]
    dsimp only
    rw [hin]
    dsimp only
    rw [hv, hf, Bool.and_self, if_pos rfl]
  exact ⟨_, hclosed, hexec.trans (startField_as_seeking line hv hf ((fieldClosed_lossCount hclosed).trans hloss))⟩

/-- Settles O33: a field begun in SEEKING by the channel's state and its ring's room, and one begun in a field as from SEEKING
behind its closing. -/
theorem fieldStartBegins : Obligations.FieldStartBegins := by
  refine ⟨?_, fun c dt w line s a hin hv hf ha => exec_timingWord_inField hin hv hf ha⟩
  intro c dt w line s offset recv hseek hv hf hoffset
    hstate hlineNo hstd hacc hvote hvoteClosed hprev hvalid hassembly hbuffer hloss hlatest hdrift
  obtain ⟨b, hb⟩ : ∃ b, b = begunState c dt w (s.ch c).rep s := ⟨_, rfl⟩
  have harrival : arrivalOffset { s with now := s.now + dt } = offset := (arrivalOffset_eq _).trans hoffset.symm
  have hrecv : recv = { begunRecv w (s.ch c).ctl.format.standard offset (s.ch c).recv with
      accepted := decide ((s.ch c).ctl.state ≠ .stopped) } := by
    replace hdrift := hdrift.trans (driftFrom_eq _ _).symm
    obtain ⟨⟩ := recv
    dsimp only at *
    subst hstate hlineNo hstd hacc hvote hvoteClosed hprev hvalid hassembly hbuffer hloss hlatest hdrift
    rfl
  have hexec : exec (.timingWord c dt w line) s = .next (acceptField c none b) := by
    rw [hb]; exact exec_timingWord_seeking hseek hv hf
  have hch : b.ch c = { s.ch c with recv := begunRecv w (s.ch c).ctl.format.standard offset (s.ch c).recv } := by
    rw [hb, begunState_ch_same, harrival]
  refine ⟨fun hstopped => ?_, fun hstopped hlost hroom => ?_, fun hstopped hlost hfull pre post r available hring hpre hr
    havailable => ?_⟩
  · rw [hexec, acceptField_stopped none (by rw [hch]; exact hstopped), hrecv, hb]
    unfold begunState
    rw [harrival, hstopped]
    rfl
  · obtain ⟨hfree, hbelow⟩ := lowestFreeSlot_spec hroom
    refine ⟨_, _, hfree, hbelow, rfl, ?_⟩
    rw [hexec, hb, acceptField_begun_room hstopped hlost hroom, harrival, hrecv, decide_eq_true hstopped]
    rfl
  · have hlength : (pre ++ post).length < 8 := by
      rw [hring] at hfull
      simp only [List.length_append, List.length_cons] at hfull ⊢
      omega
    obtain ⟨hfree, hbelow⟩ := lowestFreeSlot_spec hlength
    have hdev := keepsDevice_acceptField c none b
    have haccepted := acceptField_full (c := c) (s := b) (pre := pre) (post := post) (r := r) (by rw [hch]; exact hstopped)
      (by rw [hch]; exact hlost) (by rw [hch]; exact hfull) (by rw [hch]; exact hring) hpre hr rfl rfl
    have hoffered : availableAfter (b.ch c).ctl.lastOutput r.num = available := by
      rw [hch, availableAfter_eq, Bool.eq_iff_iff, havailable]
      cases (s.ch c).ctl.lastOutput <;> simp
    have hrep : ((raise c .slipDrop r.num b).ch c).rep = ((raise c .slipDrop r.num s).ch c).rep :=
      raise_rep_congr (by rw [hch]) (by rw [hch]) (by rw [hb]; rfl) _ _
    rw [hoffered, hrep, hch] at haccepted
    refine ⟨acceptField c none b, lowestFreeSlot (pre ++ post), _, _, hexec, hfree, hbelow, rfl, rfl, ?_, fun e he => ?_,
      hdev.dram.trans (by rw [hb]; rfl), hdev.now.trans (by rw [hb]; rfl)⟩
    · rw [haccepted, hrecv, decide_eq_true hstopped]
      rfl
    · rw [acceptField_ch_ne (by rw [hch]; exact hstopped) (by rw [hch]; exact hlost) he, hb]
      exact begunState_ch_ne he dt w _ s

end Sys2Proof.Machine
end

section
/-! SUPPORT. The tracker at a field end (R64 to R79): the transitions through `FitsAt`, the measures as counts over
zipped lines, the symbol by its limits, and what one field end leaves in the channel. -/

namespace Sys2Proof.Machine

open Sys2Proof

/-! ### The scan and the tracking states (R73 to R77) -/

/-- A pattern matches at a phase exactly when it fits there (R71). -/
@[simp] theorem matchesAt_iff (t : Tables) (pat : Fin 8) (ph : Nat) (history : List Symbol) :
    matchesAt t pat ph history = true ↔ FitsAt t pat ph history := patternMatches_iff t pat ph history

/-- The entries before `pat`, `pat` itself, and those behind it make up the scan's order (R74). -/
theorem allPatterns_split (pat : Fin 8) :
    allPatterns = allPatterns.take pat.val ++ pat :: allPatterns.drop (pat.val + 1) := by
  revert pat; decide

theorem lt_of_mem_take_allPatterns {pat q : Fin 8} (h : q ∈ allPatterns.take pat.val) : q < pat := by
  revert pat q; decide

/-- The phases of one entry: none matches where the entry fits nowhere. -/
theorem find?_phase_eq_none {t : Tables} {q : Fin 8} {history : List Symbol} (h : ∀ i, ¬ FitsAt t q i history) (n : Nat) :
    (List.range n).find? (fun ph => patternMatches (patternImage t q) ph history) = none :=
  List.find?_eq_none.2 fun i _ hm => h i ((patternMatches_iff ..).1 hm)

/-- The phases of one entry: the lowest one that fits is found. -/
theorem find?_phase_eq_some {t : Tables} {pat : Fin 8} {ph : Nat} {history : List Symbol} (h : FitsAt t pat ph history)
    (hlow : ∀ i, i < ph → ¬ FitsAt t pat i history) :
    (List.range (patternLength (patternImage t pat))).find?
      (fun ph => patternMatches (patternImage t pat) ph history) = some ph := by
  obtain ⟨-, hph, -⟩ := id h
  rw [List.find?_range_eq_some]
  refine ⟨(patternMatches_iff ..).2 h, List.mem_range.2 hph, fun i hi => ?_⟩
  rw [Bool.not_eq_true', ← Bool.not_eq_true, patternMatches_iff]
  exact hlow i hi

/-- A scan finds the first entry and phase that fit (R74). -/
theorem scanPatterns_some {t : Tables} {pat : Fin 8} {ph : Nat} {history : List Symbol} (h : FitsAt t pat ph history)
    (hfirst : ∀ (q : Fin 8) (i : Nat), (q < pat ∨ (q = pat ∧ i < ph)) → ¬ FitsAt t q i history) :
    scanPatterns t history = some (pat, ph) := by
  unfold scanPatterns
  rw [List.findSome?_eq_some_iff]
  refine ⟨_, pat, _, allPatterns_split pat, ?_, fun q hq => ?_⟩
  · rw [find?_phase_eq_some h fun i hi => hfirst pat i (.inr ⟨rfl, hi⟩)]
    rfl
  · rw [find?_phase_eq_none fun i => hfirst q i (.inl (lt_of_mem_take_allPatterns hq))]
    rfl

/-- LOCKED, HOLD and a candidate of SEARCH whose pattern fits at the phase after theirs (R74 to R77). -/
theorem trackStep_of_fits {t : Tables} {history : List Symbol} {pat : Fin 8} {ph : Nat} (p : FieldParams)
    (h : FitsAt t pat (advancePhase t pat ph) history) :
    trackStep t p history (.locked pat ph) =
      (.locked pat (advancePhase t pat ph), filmAt t pat (advancePhase t pat ph), none) ∧
    (∀ n, trackStep t p history (.hold pat ph n) =
      (.locked pat (advancePhase t pat ph), filmAt t pat (advancePhase t pat ph), none)) ∧
    ∀ run, trackStep t p history (.search (some ⟨pat, ph, run⟩)) =
      if p.confirm ≤ min 15 (run + 1) then
        (.locked pat (advancePhase t pat ph), filmAt t pat (advancePhase t pat ph), some .cadenceLocked)
      else (.search (some ⟨pat, advancePhase t pat ph, min 15 (run + 1)⟩), .video, none) := by
  have hm := (matchesAt_iff ..).2 h
  refine ⟨?_, fun n => ?_, fun run => ?_⟩ <;> simp only [trackStep, nextCandidate, if_pos hm]

/-- LOCKED, HOLD and a candidate of SEARCH whose pattern does not fit at the phase after theirs (R74, R76, R77). -/
theorem trackStep_of_not_fits {t : Tables} {history : List Symbol} {pat : Fin 8} {ph : Nat} (p : FieldParams)
    (h : ¬ FitsAt t pat (advancePhase t pat ph) history) :
    trackStep t p history (.locked pat ph) = (.hold pat (advancePhase t pat ph) 0, .video, none) ∧
    (∀ n, trackStep t p history (.hold pat ph n) =
      if p.hold < n + 1 then (.search none, .video, some .cadenceLost)
      else (.hold pat (advancePhase t pat ph) (n + 1), .video, none)) ∧
    ∀ run, trackStep t p history (.search (some ⟨pat, ph, run⟩)) = trackStep t p history (.search none) := by
  have hm := mt (matchesAt_iff ..).1 h
  refine ⟨?_, fun n => ?_, fun run => ?_⟩ <;> simp only [trackStep, nextCandidate, if_neg hm]

/-- SEARCH without a candidate, where no pattern fits (R74). -/
theorem trackStep_search_none {t : Tables} {history : List Symbol} (p : FieldParams)
    (h : ∀ pat ph, ¬ FitsAt t pat ph history) : trackStep t p history (.search none) = (.search none, .video, none) := by
  simp only [trackStep, nextCandidate, scanCandidate, scanPatterns_none h, Option.map_none]

/-- SEARCH without a candidate takes the first that fits, with run count 1 (R74, R75). -/
theorem trackStep_search_first {t : Tables} {history : List Symbol} {pat : Fin 8} {ph : Nat} (p : FieldParams)
    (h : FitsAt t pat ph history)
    (hfirst : ∀ (q : Fin 8) (i : Nat), (q < pat ∨ (q = pat ∧ i < ph)) → ¬ FitsAt t q i history) :
    trackStep t p history (.search none) =
      if p.confirm ≤ 1 then (.locked pat ph, filmAt t pat ph, some .cadenceLocked)
      else (.search (some ⟨pat, ph, 1⟩), .video, none) := by
  simp only [trackStep, nextCandidate, scanCandidate, scanPatterns_some h hfirst, Option.map_some]

/-! ### The measures (R65 to R67) -/

theorem isListed_iff (ds : List Dropout) (k : Nat) : isListed ds k = true ↔ ∃ d ∈ ds, d.line = k := by
  simp [isListed]

/-- A distance above a bound, on signed numbers (00_scope 4.2). -/
theorem lt_absDiff_iff (n a b : Nat) : n < absDiff a b ↔ n < ((a : Int) - b).natAbs := by
  unfold absDiff
  omega

/-- Differing positions, counted over the zipped lines (R66). -/
theorem countDiffs_eq_countP (n : Nat) (a b : List Nat) :
    countDiffs n a b = (a.zip b).countP (fun q => decide (n < ((q.1 : Int) - q.2).natAbs)) := by
  induction a generalizing b with
  | nil => rfl
  | cons x a ih =>
    cases b with
    | nil => rfl
    | cons y b => simp [countDiffs, ih, lt_absDiff_iff, List.countP_cons, Nat.add_comm]

/-- Combed positions, counted over the zipped lines of a triple (R67). -/
theorem countCombs_eq_countP (n : Nat) (a u d : List Nat) :
    countCombs n a u d = (a.zip (u.zip d)).countP (fun q =>
      decide ((q.2.1 + n < q.1 ∧ q.2.2 + n < q.1) ∨ (q.1 + n < q.2.1 ∧ q.1 + n < q.2.2))) := by
  induction a generalizing u d with
  | nil => rfl
  | cons x a ih =>
    match u, d with
    | [], _ => simp [countCombs]
    | _ :: _, [] => simp [countCombs]
    | y :: u, z :: d => simp [countCombs, combs, ih, List.countP_cons, Nat.add_comm]

/-- A sum over the positions that pass a test takes 0 for the others. -/
theorem sum_map_filter_eq_sum_ite {α : Type} (l : List α) (p : α → Bool) (f : α → Nat) :
    ((l.filter p).map f).sum = (l.map (fun k => if p k = true then f k else 0)).sum := by
  induction l with
  | nil => rfl
  | cons k l ih => cases hk : p k <;> simp [hk, ih]

/-- The lines of a triple and their range, by the field's parity (R67). -/
theorem combMeasure_eq (h n : Nat) (p : Parity) (i : Image) (r : FieldRecord) (i1 : Image) (r1 : FieldRecord)
    (above : Parity → Nat → Nat) (habove : ∀ k, above .top k = k ∧ above .bottom k = k - 1) :
    combMeasure h n p i r i1 r1 = min 65535
      (((List.range h).filter (fun k => match p with | .top => decide (k + 1 < h) | .bottom => decide (1 ≤ k))).map
        (fun k => match usableLine i1 r1 k, usableLine i r (above p k), usableLine i r (above p k + 1) with
          | some a, some u, some d => (a.zip (u.zip d)).countP (fun q =>
              decide ((q.2.1 + n < q.1 ∧ q.2.2 + n < q.1) ∨ (q.1 + n < q.2.1 ∧ q.1 + n < q.2.2)))
          | _, _, _ => 0)).sum := by
  rw [sum_map_filter_eq_sum_ite]
  unfold combMeasure sumBelow
  refine congrArg (fun l : List Nat => min 65535 l.sum) (List.map_congr_left fun k hk => ?_)
  have hkh : k < h := List.mem_range.1 hk
  obtain ⟨htop, hbottom⟩ := habove k
  cases p with
  | top =>
    rw [htop]
    simp only [isTriple, tripleLines, countCombs_eq_countP] <;> rfl
  | bottom =>
    rw [hbottom]
    by_cases hk1 : 1 ≤ k
    · have hbelow : k - 1 + 1 = k := by omega
      simp only [isTriple, tripleLines, countCombs_eq_countP, hkh, hbelow, decide_true, Bool.and_true] <;> rfl
    · simp only [isTriple, hk1, decide_false, Bool.false_and] <;> rfl

/-- A repeat measure is there exactly for a second predecessor of the field's parity with an image (R65, R66). -/
theorem repeatOf_eq_some_iff {images : List Image} {r : FieldRecord} {i : Image} (hi : imageOf images r.num = some i)
    (h n : Nat) (before : Option FieldRecord) (m : Nat) :
    repeatOf h n images r before = some m ↔ ∃ r2 i2, before = some r2 ∧ imageOf images r2.num = some i2 ∧
      r2.parity = r.parity ∧ m = repeatMeasure h n i r i2 r2 := by
  unfold repeatOf
  cases before with
  | none => simp
  | some r2 => cases hi2 : imageOf images r2.num <;> simp [hi, hi2, eq_comm]

/-- A comb measure is there exactly for a predecessor of the other parity with an image (R65, R67). -/
theorem combOf_eq_some_iff {images : List Image} {r : FieldRecord} {i : Image} {p : Parity}
    (hi : imageOf images r.num = some i) (hp : r.parity = some p) (h n : Nat) (before : Option FieldRecord) (m : Nat) :
    combOf h n images r before = some m ↔ ∃ r1 i1, before = some r1 ∧ imageOf images r1.num = some i1 ∧
      r1.parity = some (opposite p) ∧ m = combMeasure h n p i r i1 r1 := by
  unfold combOf
  cases before with
  | none => simp
  | some r1 => cases hi1 : imageOf images r1.num <;> simp [hi, hp, hi1, eq_comm]

/-! ### The symbol (R68) -/

theorem within_iff (m : Option Nat) (limit : Nat) : within m limit = true ↔ ∃ x, m = some x ∧ x ≤ limit := by
  cases m <;> simp [within]

/-- The symbol of a field that is damaged or has no measure. -/
theorem formSymbol_unmeasured {damaged : Bool} {c r : Option Nat} (h : damaged = true ∨ (c = none ∧ r = none))
    (pairLimit repeatLimit : Nat) : formSymbol damaged c r pairLimit repeatLimit = .unknown := by
  unfold formSymbol
  exact if_pos (by simpa using h)

/-- The symbol of any other field, by its two limits. -/
theorem formSymbol_measured {damaged : Bool} {c r : Option Nat} (h : ¬ (damaged = true ∨ (c = none ∧ r = none)))
    (pairLimit repeatLimit : Nat) : formSymbol damaged c r pairLimit repeatLimit =
      if within c pairLimit = true then (if within r repeatLimit = true then .pr else .p)
      else (if within r repeatLimit = true then .r else .neither) := by
  unfold formSymbol
  rw [if_neg (by simpa using h)]
  cases within c pairLimit <;> cases within r repeatLimit <;> rfl

/-- A measure within its limit is a measure. -/
theorem not_absent_of_within {c r : Option Nat} {pairLimit repeatLimit : Nat}
    (h : within c pairLimit = true ∨ within r repeatLimit = true) : ¬ (c = none ∧ r = none) := by
  rintro ⟨rfl, rfl⟩
  simp [within] at h

/-- Each symbol but NONE by the damage and the two limits (R68). -/
theorem formSymbol_iff (damaged : Bool) (c r : Option Nat) (pairLimit repeatLimit : Nat) :
    let x := formSymbol damaged c r pairLimit repeatLimit
    let paired := within c pairLimit = true
    let repeated := within r repeatLimit = true
    (x = .unknown ↔ damaged = true ∨ (c = none ∧ r = none)) ∧
    (x = .pr ↔ damaged = false ∧ paired ∧ repeated) ∧ (x = .p ↔ damaged = false ∧ paired ∧ ¬ repeated) ∧
    (x = .r ↔ damaged = false ∧ ¬ paired ∧ repeated) := by
  intro x paired repeated
  by_cases h : damaged = true ∨ (c = none ∧ r = none)
  · have hx : x = .unknown := formSymbol_unmeasured h ..
    have hno : ¬ (damaged = false ∧ (paired ∨ repeated)) := by
      rintro ⟨hd, hw⟩
      rcases h with h | h
      · exact absurd (hd.symm.trans h) Bool.false_ne_true
      · exact not_absent_of_within hw h
    rw [hx]
    tauto
  · have hx : x = if paired then (if repeated then .pr else .p) else (if repeated then .r else .neither) :=
      formSymbol_measured h ..
    have hd : damaged = false := by simpa using mt Or.inl h
    rw [hx, iff_false_right h]
    by_cases hp : paired <;> by_cases hr : repeated <;> simp [hd, hp, hr]

/-! ### What one field end leaves (R64, R78, R79) -/

/-- The two counters of a tracker event (R79). -/
theorem countTrackEvent_eq (e : Option EventKind) (x : Stats) :
    countTrackEvent e x = { x with
      cadenceLocks := if e = some .cadenceLocked then min 65535 (x.cadenceLocks + 1) else x.cadenceLocks
      cadenceLosses := if e = some .cadenceLost then min 65535 (x.cadenceLosses + 1) else x.cadenceLosses } := by
  rcases e with _ | k
  · rfl
  · cases k <;> rfl

/-- The decision under the cadence policy (R78). -/
theorem policyDecision_eq (p : Policy) (d : Decision) :
    policyDecision p d = if p = .videoOnly then .video else d := by
  cases p <;> rfl

/-- A tracker event touches the reports alone, and they take it as before the field end (R79). -/
theorem raiseTrackEvent_setCh_ch {c : Chan} {s : State} {ch : Channel} (hrep : ch.rep = (s.ch c).rep)
    (hhalt : ch.ctl.halt = (s.ch c).ctl.halt) (e : Option EventKind) (n : Nat) :
    (raiseTrackEvent c e n (s.setCh c ch)).ch c = { ch with
      rep := match e with | some k => ((raise c k n s).ch c).rep | none => (s.ch c).rep } := by
  unfold raiseTrackEvent
  cases e with
  | none => rw [State.ch_setCh_same, ← hrep]
  | some k =>
    dsimp only
    rw [raise_ch_same, raise_rep_congr (s := s) (by rw [State.ch_setCh_same, hrep]) (by rw [State.ch_setCh_same, hhalt])
      (State.loader_setCh ..), State.ch_setCh_same]

/-- The field end of the newest record, taken by the tracker (R36 step 3, R64). -/
theorem cadenceFieldEnd_of_newest {c : Chan} {s : State} {r : FieldRecord} {older : List FieldRecord}
    (h : (s.ch c).ring.reverse = r :: older) :
    cadenceFieldEnd c s = raiseTrackEvent c (trackFieldEnd s.tables r older[0]? older[1]? (s.ch c)).2 r.num
      (s.setCh c (trackFieldEnd s.tables r older[0]? older[1]? (s.ch c)).1) := by
  unfold cadenceFieldEnd
  rw [h]

/-- A field end whose field has its image: the measures, the symbol and the tracker's step are left together (R64). -/
theorem trackFieldEnd_of_image {t : Tables} {r : FieldRecord} {r1 r2 : Option FieldRecord} {ch : Channel} {i : Image}
    {rm cm : Option Nat} {sym : Symbol} {history : List Symbol} {next : Track} {decision : Decision}
    {event : Option EventKind} (hi : imageOf ch.cad.images r.num = some i)
    (hrm : rm = repeatOf (activeLines ch.ctl.format.standard) i.params.noise ch.cad.images r r2)
    (hcm : cm = combOf (activeLines ch.ctl.format.standard) i.params.comb ch.cad.images r r1)
    (hsym : sym = formSymbol r.damaged cm rm i.params.pairLimit i.params.repeatLimit)
    (hhistory : history = pushSymbol sym ch.cad.history)
    (hstep : (next, decision, event) = trackStep t i.params history ch.cad.track) :
    trackFieldEnd t r r1 r2 ch = ({ ch with
      ring := modRecord r.num (fun x => { x with
        repeatM := rm, combM := cm, symbol := some sym
        decision := some (policyDecision i.params.policy decision) }) ch.ring
      cad := ⟨next, history, some r.num, ch.cad.images⟩
      stats := countTrackEvent event ch.stats }, event) := by
  unfold trackFieldEnd
  simp only [hi, ← hrm, ← hcm, ← hsym, ← hhistory, ← hstep]

/-- Settles O50: the transitions from what fits, the measures as counts, the symbol by its limits, and the channel that one
field end leaves. -/
theorem trackerFieldEnd : Obligations.TrackerFieldEnd := by
  refine ⟨?_, fun t p history => ⟨trackStep_search_none p, fun pat ph => trackStep_search_first p⟩, fun i r k => ?_,
    fun h n i i2 r r2 => ?_, fun h n i i1 r r1 above habove p => combMeasure_eq h n p i r i1 r1 above habove,
    fun h n images r before i hi => ⟨repeatOf_eq_some_iff hi h n before, fun p m hp => ?_⟩, ?_, ?_⟩
  · rintro t p history pat ph nxt hnxt film rfl
    obtain rfl : nxt = advancePhase t pat ph := hnxt
    exact ⟨trackStep_of_fits p, trackStep_of_not_fits p⟩
  · simp only [usableLine, isListed_iff]
  · simp only [repeatMeasure, sumBelow, countDiffs_eq_countP] <;> rfl
  · rw [combOf_eq_some_iff hi hp]
    cases p <;> rfl
  · rintro damaged c r pairLimit repeatLimit paired repeated hpaired hrepeated x rfl
    rw [hpaired, hrepeated, ← within_iff, ← within_iff]
    exact formSymbol_iff damaged c r pairLimit repeatLimit
  · rintro c s r older i p h rm cm sym history next decision event hring hi rfl rfl hrm hcm hsym hhistory hstep
    refine ⟨_, rfl, ?_⟩
    rw [cadenceFieldEnd_of_newest hring, trackFieldEnd_of_image hi hrm hcm hsym hhistory hstep, raiseTrackEvent_setCh_ch]
    · exact ⟨by rw [policyDecision_eq]; rfl, rfl, rfl, countTrackEvent_eq ..⟩
    · rfl
    · rfl

end Sys2Proof.Machine
end

section
/-! SUPPORT. The engine's samples (R90 to R98): the blend between its estimates, the estimates of a missing row, the video
row and the woven row, sample by sample. -/

namespace Sys2Proof.Machine

open Sys2Proof

/-! ### The blend and its weight (R94, R95, R141) -/

/-- The two weights of a blend make up 64. -/
theorem weights_sum {w : Nat} (hw : w ≤ 64) (n : Nat) : w * n + (64 - w) * n = 64 * n := by
  rw [← Nat.add_mul, Nat.add_sub_cancel' hw]

/-- A blend lies between its estimates (R95). -/
theorem blend_between {w : Nat} (hw : w ≤ 64) (a b : Nat) : min a b ≤ blend w a b ∧ blend w a b ≤ max a b := by
  have hlow : 64 * min a b ≤ w * a + (64 - w) * b := by
    rw [← weights_sum hw]
    exact Nat.add_le_add (Nat.mul_le_mul_left _ (Nat.min_le_left a b)) (Nat.mul_le_mul_left _ (Nat.min_le_right a b))
  have hhigh : w * a + (64 - w) * b ≤ 64 * max a b := by
    rw [← weights_sum hw]
    exact Nat.add_le_add (Nat.mul_le_mul_left _ (Nat.le_max_left a b)) (Nat.mul_le_mul_left _ (Nat.le_max_right a b))
  unfold blend
  omega

/-- A full weight gives the spatial estimate, none the temporal one (R95). -/
theorem blend_extremes (a b : Nat) : blend 64 a b = a ∧ blend 0 a b = b := by
  unfold blend
  omega

/-- A valid curve gives no weight above 64, a motion beyond its end the weight 0 (R141, R144, R149). -/
theorem motionWeight_le_of_valid {i : Fin 4} {image : List Byte} (h : entryValid (.curve i) image = true) (m : Nat) :
    motionWeight image m ≤ 64 := by
  simp only [entryValid, Bool.and_eq_true, decide_eq_true_eq] at h
  obtain ⟨hlength, hfaults⟩ := h
  unfold motionWeight
  by_cases hm : m / 32 < 32
  · have hnone := List.filter_eq_nil_iff.1 hfaults (m / 32) (List.mem_range.2 hm)
    simp only [curveFault, Bool.or_eq_true, decide_eq_true_eq, not_or] at hnone
    exact Nat.le_of_not_lt hnone.1
  · have hend : image[m / 32]? = none := List.getElem?_eq_none (hlength.trans_le (Nat.le_of_not_lt hm))
    simp [curveWeight, byteAt, hend]

/-! ### The estimates of a luma position (R92 to R94) -/

/-- The absolute difference, on signed numbers (00_scope 4.2). -/
theorem absDiff_eq (a b : Nat) : absDiff a b = ((a : Int) - b).natAbs := by
  unfold absDiff
  omega

/-- The spatial estimate is the candidate that R92 names. -/
theorem spatialAt_spatialLuma (a b : Array Nat) (x : Nat) : SpatialAt a b x (spatialLuma a b x) := by
  refine ⟨_, _, _, _, _, rfl, rfl, rfl, rfl, rfl, ?_⟩
  unfold spatialLuma
  simp only [absDiff_eq]
  split
  · next h => exact .inl ⟨h.1, h.2, rfl⟩
  · next h =>
    split
    · next hl => exact .inr (.inl ⟨Nat.lt_of_not_le fun hv => h ⟨hv, hv.trans hl⟩, hl, rfl⟩)
    · next hl =>
      have hr := Nat.lt_of_not_le hl
      exact .inr (.inr ⟨Nat.lt_of_not_le fun hv => h ⟨hv.trans hr.le, hv⟩, hr, rfl⟩)

/-- The motion is the largest of the three differences (R94). -/
theorem motionAt_eq (p n : Array Nat) (x : Nat) : motionAt p n x =
    max ((p.getD (x - 1) 0 : Int) - n.getD (x - 1) 0).natAbs (max ((p.getD x 0 : Int) - n.getD x 0).natAbs
      ((p.getD (min 719 (x + 1)) 0 : Int) - n.getD (min 719 (x + 1)) 0).natAbs) := by
  unfold motionAt
  simp only [absDiff_eq]
  rfl

section

variable (curve : List Byte) (a b : Row)

/-- The video value lies between its estimates; without a temporal one it is the spatial one (R95). -/
theorem videoLuma_between {curve : List Byte} (hcurve : ∀ n, motionWeight curve n ≤ 64) (temporal : Option (Row × Row))
    (x : Nat) {e : Estimate} (he : e = videoLuma curve a b temporal x) :
    min e.s (e.t.getD e.s) ≤ e.o ∧ e.o ≤ max e.s (e.t.getD e.s) := by
  subst he
  cases temporal with
  | none => exact ⟨Nat.min_le_left _ _, Nat.le_max_left _ _⟩
  | some pn => exact blend_between (hcurve _) _ _

/-- The account of a position with its temporal estimate (R93 to R95). -/
theorem videoLuma_some (p q : Row) (x : Nat) {e : Estimate} (he : e = videoLuma curve a b (some (p, q)) x) :
    SpatialAt a.y b.y x e.s ∧ e.t = some ((p.y.getD x 0 + q.y.getD x 0 + 1) / 2) ∧
    e.m = max ((p.y.getD (x - 1) 0 : Int) - q.y.getD (x - 1) 0).natAbs (max ((p.y.getD x 0 : Int) - q.y.getD x 0).natAbs
      ((p.y.getD (min 719 (x + 1)) 0 : Int) - q.y.getD (min 719 (x + 1)) 0).natAbs) ∧
    e.w = (curve.getD (e.m / 32) 0).toNat ∧
    e.o = (e.w * e.s + (64 - e.w) * ((p.y.getD x 0 + q.y.getD x 0 + 1) / 2) + 32) / 64 := by
  subst he
  exact ⟨spatialAt_spatialLuma .., rfl, motionAt_eq .., rfl, rfl⟩

/-! ### A video row, sample by sample (R95, R96) -/

/-- Each luma sample is the video value of its position. -/
theorem videoRow_luma (temporal : Option (Row × Row)) {x : Nat} (hx : x < 720) :
    (videoRow curve a b temporal).y.getD x 0 = (videoLuma curve a b temporal x).o := getD_tabulate _ hx

/-- Without a temporal estimate a chroma sample is the average of those above and below. -/
theorem videoRow_chroma_spatial {j : Nat} (hj : j < 360) :
    (videoRow curve a b none).cb.getD j 0 = (a.cb.getD j 0 + b.cb.getD j 0 + 1) / 2 ∧
    (videoRow curve a b none).cr.getD j 0 = (a.cr.getD j 0 + b.cr.getD j 0 + 1) / 2 :=
  ⟨getD_tabulate _ hj, getD_tabulate _ hj⟩

/-- With one, a chroma sample is blended by the weight of its co-sited luma sample. -/
theorem videoRow_chroma_blended (p q : Row) {j w : Nat} (hj : j < 360)
    (hw : w = (videoLuma curve a b (some (p, q)) (2 * j)).w) :
    (videoRow curve a b (some (p, q))).cb.getD j 0 = (w * ((a.cb.getD j 0 + b.cb.getD j 0 + 1) / 2) +
      (64 - w) * ((p.cb.getD j 0 + q.cb.getD j 0 + 1) / 2) + 32) / 64 ∧
    (videoRow curve a b (some (p, q))).cr.getD j 0 = (w * ((a.cr.getD j 0 + b.cr.getD j 0 + 1) / 2) +
      (64 - w) * ((p.cr.getD j 0 + q.cr.getD j 0 + 1) / 2) + 32) / 64 := by
  subst hw
  exact ⟨getD_tabulate _ hj, getD_tabulate _ hj⟩

end

/-- The average of two rows (R90, R91). -/
theorem averageOf_averageRows (a b : Row) : AverageOf a b (averageRows a b) :=
  ⟨fun _ hx => getD_tabulate _ hx, fun _ hj => ⟨getD_tabulate _ hj, getD_tabulate _ hj⟩⟩

/-! ### A woven row, sample by sample (R97, R98) -/

/-- A woven sample combs when it stands out from both rows beside it (R98). -/
theorem wovenCombs_iff (k : Nat) (p a d : Row) (x : Nat) : wovenCombs k p a d x = true ↔
    (a.y.getD x 0 + k < p.y.getD x 0 ∧ d.y.getD x 0 + k < p.y.getD x 0) ∨
    (p.y.getD x 0 + k < a.y.getD x 0 ∧ p.y.getD x 0 + k < d.y.getD x 0) := by
  simp only [wovenCombs, combs, Bool.or_eq_true, Bool.and_eq_true, decide_eq_true_eq]
  exact Iff.rfl

section

variable {k : Nat} {curve : List Byte} {p a d : Row} {woven : Nat → Bool}

/-- What is woven is what does not comb (R98). -/
theorem wovenCombs_eq_not (h : ∀ x, woven x = false ↔
      (a.y.getD x 0 + k < p.y.getD x 0 ∧ d.y.getD x 0 + k < p.y.getD x 0) ∨
      (p.y.getD x 0 + k < a.y.getD x 0 ∧ p.y.getD x 0 + k < d.y.getD x 0)) (x : Nat) :
    wovenCombs k p a d x = !woven x := by
  rw [Bool.eq_iff_iff, wovenCombs_iff, ← h, Bool.not_eq_true']

variable (h : ∀ x, wovenCombs k p a d x = !woven x) (temporal : Option (Row × Row))

include h

/-- The luma samples of a woven row: the partner's, or where they comb the video value (R98). -/
theorem wovenRow_luma {x : Nat} (hx : x < 720) : (wovenRow k curve p a d temporal).y.getD x 0 =
    if woven x then p.y.getD x 0 else (videoRow curve a d temporal).y.getD x 0 := by
  refine (getD_tabulate _ hx).trans ?_
  rw [h]
  cases woven x <;> simp [sampleAt]

/-- The chroma samples of a woven row go by their co-sited luma sample (R96, R98). -/
theorem wovenRow_chroma {j : Nat} (hj : j < 360) :
    (wovenRow k curve p a d temporal).cb.getD j 0 =
      (if woven (2 * j) then p.cb.getD j 0 else (videoRow curve a d temporal).cb.getD j 0) ∧
    (wovenRow k curve p a d temporal).cr.getD j 0 =
      (if woven (2 * j) then p.cr.getD j 0 else (videoRow curve a d temporal).cr.getD j 0) := by
  refine ⟨(getD_tabulate _ hj).trans ?_, (getD_tabulate _ hj).trans ?_⟩ <;> rw [h] <;>
    cases woven (2 * j) <;> simp [sampleAt]

/-- The account of a woven sample (R102). -/
theorem wovenLuma_eq (x : Nat) : wovenLuma k curve p a d temporal x =
    if woven x then { videoLuma curve a d temporal x with t := some (p.y.getD x 0), w := 0, o := p.y.getD x 0 }
    else videoLuma curve a d temporal x := by
  unfold wovenLuma
  rw [h]
  cases woven x <;> rfl

/-- The samples that fall back, counted (R98). -/
theorem combCount_eq : combCount k p a d = (List.range 720).countP (fun x => !woven x) := by
  unfold combCount
  rw [funext h]

end

end Sys2Proof.Machine
end

section
/-! SUPPORT. The rows that the engine builds (R90, R91, R97, R98, R102): an existing row delivered or repaired, a missing row
woven or blended, with the account of one column. -/

namespace Sys2Proof.Machine

open Sys2Proof

/-- Both neighbours' rows at a line place, each usable there (R90). -/
theorem temporalRows_eq_some_iff (f : Frame) (existing : Bool) (k : Nat) (p q : Row) :
    temporalRows f existing k = some (p, q) ↔
      (if existing then bothSameParity f else oppositeSource f .pred && oppositeSource f .succ) = true ∧
      usableRow f .pred k = some p ∧ usableRow f .succ k = some q := by
  unfold temporalRows
  generalize (if existing then bothSameParity f else oppositeSource f .pred && oppositeSource f .succ) = supplied
  cases supplied with
  | false => simp
  | true => cases usableRow f .pred k <;> cases usableRow f .succ k <;> simp

/-! ### An existing row (R91) -/

section

variable {f : Frame} {k : Nat} {above below : Option Row}
  (habove : above = if k = 0 then none else usableRow f .centre (k - 1))
  (hbelow : below = if f.height ≤ k + 1 then none else usableRow f .centre (k + 1))

include habove hbelow

/-- A repair from both rows two away is their average, from one of them that row. -/
theorem repairedRow_beside :
    (∀ u v, above = some u → below = some v → AverageOf u v (repairedRow f k)) ∧
    (∀ u, above = some u → below = none → repairedRow f k = u) ∧
    (∀ v, above = none → below = some v → repairedRow f k = v) := by
  unfold repairedRow
  rw [← habove, ← hbelow]
  refine ⟨fun u v hu hv => ?_, fun u hu hv => ?_, fun v hu hv => ?_⟩ <;> rw [hu, hv]
  exact averageOf_averageRows u v

/-- Without them a repair is the neighbours' average, or black. -/
theorem repairedRow_alone (hnone : above = none) (hnone' : below = none) :
    (∀ p q, bothSameParity f = true → usableRow f .pred k = some p → usableRow f .succ k = some q →
      AverageOf p q (repairedRow f k)) ∧
    ((bothSameParity f = false ∨ usableRow f .pred k = none ∨ usableRow f .succ k = none) →
      repairedRow f k = colourRow 720 ⟨64, 512, 512⟩) := by
  unfold repairedRow
  rw [← habove, ← hbelow, hnone, hnone']
  refine ⟨fun p q hboth hp hq => ?_, fun h => ?_⟩
  · rw [(temporalRows_eq_some_iff f true k p q).2 ⟨hboth, hp, hq⟩]
    exact averageOf_averageRows p q
  · have htemporal : temporalRows f true k = none := Option.eq_none_iff_forall_ne_some.2 fun ⟨p, q⟩ hpq => by
      obtain ⟨hboth, hp, hq⟩ := (temporalRows_eq_some_iff ..).1 hpq
      rcases h with h | h | h
      · exact Bool.false_ne_true (h.symm.trans hboth)
      · exact Option.some_ne_none p (hp.symm.trans h)
      · exact Option.some_ne_none q (hq.symm.trans h)
    rw [htemporal]
    rfl

end

/-- A row that the centre supplies is built as an existing one. -/
theorem buildRow_existing {f : Frame} {r : Nat} (h : supplies f.centre.parity r = true) (col : Nat) :
    buildRow f r col = buildExisting f (r / 2) col := if_pos h

/-- An existing row is the line delivered, or its repair. -/
theorem buildExisting_row (f : Frame) (k col : Nat) :
    (∀ a, usableRow f .centre k = some a → (buildExisting f k col).row = a) ∧
    (usableRow f .centre k = none → (buildExisting f k col).row = repairedRow f k) := by
  unfold buildExisting
  refine ⟨fun a ha => ?_, fun h => ?_⟩
  · rw [ha]; rfl
  · rw [h]; rfl

/-! ### A missing row (R92, R95, R97) -/

/-- The existing rows beside a missing row, at an edge the one inside the frame as both (R92). -/
theorem rowsBeside_of_usable {f : Frame} {r : Nat} {a d : Row} (hr : r < 2 * f.height)
    (ha : usableRow f .centre (if r = 0 then (r + 1) / 2 else (r - 1) / 2) = some a)
    (hd : usableRow f .centre (if 2 * f.height ≤ r + 1 then (r - 1) / 2 else (r + 1) / 2) = some d) :
    rowsBeside f r = (a, d) := by
  unfold rowsBeside linePlace
  by_cases htop : r = 0
  · have hinside : ¬ 2 * f.height ≤ r + 1 := by omega
    rw [if_pos htop] at ha
    rw [if_neg hinside, ha] at hd
    rw [if_pos htop, if_neg hinside, ha, Option.some.inj hd]
  · rw [if_neg htop] at ha
    rw [if_neg htop, ha]
    by_cases hbottom : 2 * f.height ≤ r + 1
    · rw [if_pos hbottom, ha] at hd
      rw [if_pos hbottom, Option.some.inj hd]
    · rw [if_neg hbottom] at hd
      rw [if_neg hbottom, hd]

/-- No partner is usable: a VIDEO mode, or a FILM mode whose partner is of the centre's parity, absent or listed there. -/
theorem partnerRow_eq_none {f : Frame} {k : Nat} (h : f.mode = .video ∨
      (f.mode = .film .prev ∧ (oppositeSource f .pred = false ∨ usableRow f .pred k = none)) ∨
      (f.mode = .film .next ∧ (oppositeSource f .succ = false ∨ usableRow f .succ k = none))) :
    partnerRow f k = none := by
  unfold partnerRow
  rcases h with hm | ⟨hm, ho | hu⟩ | ⟨hm, ho | hu⟩ <;> rw [hm] <;> simp [*]

/-- The usable partner of a FILM mode (R97). -/
theorem partnerRow_eq_some {f : Frame} {k : Nat} {p : Row}
    (h : (f.mode = .film .prev ∧ oppositeSource f .pred = true ∧ usableRow f .pred k = some p) ∨
      (f.mode = .film .next ∧ oppositeSource f .succ = true ∧ usableRow f .succ k = some p)) :
    partnerRow f k = some p := by
  unfold partnerRow
  rcases h with ⟨hm, ho, hu⟩ | ⟨hm, ho, hu⟩ <;> rw [hm] <;> simp [ho, hu]

/-- Any other row is built as a missing one. -/
theorem buildRow_missing {f : Frame} {r : Nat} (h : supplies f.centre.parity r = false) (col : Nat) :
    buildRow f r col = buildMissing f r col := if_neg (by rw [h]; exact Bool.false_ne_true)

section

variable {f : Frame} {r k : Nat} {a d : Row} {temporal : Option (Row × Row)} (col : Nat) (hk : k = r / 2)
  (hmissing : supplies f.centre.parity r = false) (hbeside : rowsBeside f r = (a, d))
  (htemporal : temporalRows f false k = temporal)

include hk hmissing hbeside htemporal

/-- Without a usable partner a missing row has the video value throughout (R95, R97). -/
theorem buildRow_video (hpartner : partnerRow f k = none) : buildRow f r col =
    ⟨videoRow f.curve a d temporal, 0, videoLuma f.curve a d temporal col, f.mode, false⟩ := by
  subst hk
  rw [buildRow_missing hmissing]
  unfold buildMissing linePlace
  dsimp only
  rw [hpartner, hbeside, htemporal]

/-- With one it is woven (R97, R98). -/
theorem buildRow_woven {p : Row} (hpartner : partnerRow f k = some p) : buildRow f r col =
    ⟨wovenRow f.comb f.curve p a d temporal, combCount f.comb p a d, wovenLuma f.comb f.curve p a d temporal col, f.mode,
      wovenCombs f.comb p a d col⟩ := by
  subst hk
  rw [buildRow_missing hmissing]
  unfold buildMissing linePlace
  dsimp only
  rw [hpartner, hbeside, htemporal]

end

/-- A built row carries the frame's mode (R102). -/
theorem buildRow_mode (f : Frame) (r col : Nat) : (buildRow f r col).mode = f.mode := by
  unfold buildRow buildExisting buildMissing
  split
  · rfl
  · dsimp only
    split <;> rfl

/-- Its samples and its fallbacks do not depend on the column that the account is of. -/
theorem buildRow_column (f : Frame) (r col col' : Nat) :
    (buildRow f r col).row = (buildRow f r col').row ∧ (buildRow f r col).fallbacks = (buildRow f r col').fallbacks := by
  unfold buildRow buildExisting buildMissing
  split
  · exact ⟨rfl, rfl⟩
  · dsimp only
    split <;> exact ⟨rfl, rfl⟩

end Sys2Proof.Machine
end

section
/-! SUPPORT. The engine's turns and its build order (R85 to R87), the lines that a row built leaves (R91), and the Sample Probe at
a row (R102, R175). -/

namespace Sys2Proof.Machine

open Sys2Proof

/-! ### Turns of the read plan (R85, R86) -/

/-- The next turn, where one may be taken. -/
theorem nextTurn_open {f : Frame} (hread : f.read = .idle) (hturn : f.turn < 3 * f.height) (hcache : f.cache.length < 12)
    (busy : Bool) (ring : List FieldRecord) : nextTurn busy ring f =
      if lineNeeded ring f (turnRole f.turn) (turnLine f.turn) then if busy then none else some { f with read := .pending }
      else some (skipTurn f) := if_pos ⟨hread, hturn, hcache⟩

/-- None is taken otherwise. -/
theorem nextTurn_closed {f : Frame} (h : f.read ≠ .idle ∨ 3 * f.height ≤ f.turn ∨ 12 ≤ f.cache.length) (busy : Bool)
    (ring : List FieldRecord) : nextTurn busy ring f = none := by
  refine if_neg fun ⟨hread, hturn, hcache⟩ => ?_
  rcases h with h | h | h
  · exact h hread
  · exact Nat.not_lt.2 h hturn
  · exact Nat.not_lt.2 h hcache

/-- A read of the channel is in flight (R50, R52). -/
theorem readInFlight_iff (c : Chan) (b : Option Burst) : readInFlight c b = true ↔
    ∃ slot line role num live present, b = some (.read c slot line role num live present) := by
  rcases b with _ | ⟨_, _, _, _⟩ | ⟨d, _, _, _, _, _, _⟩ <;> simp [readInFlight]

/-! ### The run (R87) -/

section

variable {c : Chan} {s t : State}

/-- A row that can be built is built first (log entry 20). -/
theorem runEngine_of_built (h : buildNext c s = some t) (fuel : Nat) : runEngine c (fuel + 1) s = runEngine c fuel t := by
  rw [runEngine, h]

/-- Else a turn is taken. -/
theorem runEngine_of_turn (hbuild : buildNext c s = none) (h : turnNext c s = some t) (fuel : Nat) :
    runEngine c (fuel + 1) s = runEngine c fuel t := by
  rw [runEngine, hbuild]
  dsimp only
  rw [h]

/-- Else the engine waits. -/
theorem runEngine_of_waiting (hbuild : buildNext c s = none) (h : turnNext c s = none) (fuel : Nat) :
    runEngine c fuel s = s := by
  cases fuel with
  | zero => rfl
  | succ fuel =>
    rw [runEngine, hbuild]
    dsimp only
    rw [h]

/-- Without a frame the engine waits. -/
theorem runEngine_without_frame (h : (s.ch c).engine = none) (fuel : Nat) : runEngine c fuel s = s := by
  refine runEngine_of_waiting ?_ ?_ fuel
  · unfold buildNext
    rw [h]
  · unfold turnNext
    rw [h]

/-- The turn that a frame takes, with the arbiter's burst said (R50). -/
theorem turnNext_of_frame {f : Frame} {busy : Bool} (h : (s.ch c).engine = some f) (hbusy : busy = true ↔
      ∃ slot line role num live present, s.arbiter.burst = some (.read c slot line role num live present)) :
    turnNext c s = (nextTurn busy (s.ch c).ring f).map (fun g => s.setCh c { s.ch c with engine := some g }) := by
  have hflight : readInFlight c s.arbiter.burst = busy := by rw [Bool.eq_iff_iff, readInFlight_iff, hbusy]
  unfold turnNext
  rw [h]
  dsimp only
  rw [hflight]
  rfl

/-- No row is built of a finished frame, before a delivery, with a full cache or before its lines are there (R87, R175). -/
theorem buildNext_waiting {f : Frame} (hf : (s.ch c).engine = some f)
    (h : 2 * f.height ≤ f.rowsBuilt ∨ f.delivered = false ∨ 12 ≤ f.cache.length ∨
      rowReady f (rowAt f.centre.parity f.height f.rowsBuilt) = false) : buildNext c s = none := by
  refine Option.eq_none_iff_forall_ne_some.2 fun t ht => ?_
  obtain ⟨f', sc, r, b, hf', -, rfl, hmore, hdelivered, hroom, hready, -, -⟩ := buildNext_cases ht
  obtain rfl : f = f' := Option.some.inj (hf.symm.trans hf')
  rcases h with h | h | h | h
  · exact of_decide_eq_false hmore h
  · exact Bool.false_ne_true (h.symm.trans hdelivered)
  · exact Nat.not_le.2 hroom h
  · exact Bool.false_ne_true (h.symm.trans hready)

/-- Otherwise the next row is built, and the probe may look at it. -/
theorem buildNext_of_ready {f : Frame} {sc : ScalerFrame} (hf : (s.ch c).engine = some f) (hsc : (s.ch c).scaler = some sc)
    (hmore : f.rowsBuilt < 2 * f.height) (hdelivered : f.delivered = true) (hroom : f.cache.length < 12) {r : Nat}
    (hr : r = rowAt f.centre.parity f.height f.rowsBuilt) (hready : rowReady f r = true) {b : Built}
    (hb : b = buildRow f r (probeColumn s.probe)) : buildNext c s =
      some (probeRow c f r b (s.setCh c { s.ch c with engine := some (afterBuild sc r b f) })) := by
  subst hr
  subst hb
  unfold buildNext
  rw [hf, hsc]
  exact if_pos ⟨decide_eq_false (Nat.not_le.2 hmore), hdelivered, hroom, hready⟩

end

/-! ### The build order (R87) -/

/-- A TOP centre: the first row and the last stand at their own places, and of the others each missing row comes behind the
existing row below it. -/
theorem rowAt_top (h k : Nat) : (0 < h → rowAt .top h 0 = 0 ∧ rowAt .top h (2 * h - 1) = 2 * h - 1) ∧
    (k + 1 < h → rowAt .top h (2 * k + 1) = 2 * k + 2 ∧ rowAt .top h (2 * k + 2) = 2 * k + 1) := by
  unfold rowAt
  refine ⟨fun _ => ⟨if_pos (.inl rfl), if_pos (.inr rfl)⟩, fun hk => ⟨?_, ?_⟩⟩
  · exact (if_neg (by omega)).trans (if_pos (by omega))
  · exact (if_neg (by omega)).trans (if_neg (by omega))

/-- A BOTTOM centre: each missing row comes behind the existing row below it. -/
theorem rowAt_bottom (h k : Nat) : rowAt .bottom h (2 * k) = 2 * k + 1 ∧ rowAt .bottom h (2 * k + 1) = 2 * k :=
  ⟨if_pos (by omega), if_neg (by omega)⟩

/-- When an existing row is ready (R87, R91). -/
theorem rowReady_existing {f : Frame} {r : Nat} (h : supplies f.centre.parity r = true) : rowReady f r = true ↔
    3 * (r / 2) < f.turn ∧ (usableRow f .centre (r / 2) ≠ none ∨
      ((r / 2 + 1 < f.height → 3 * (r / 2 + 1) < f.turn) ∧ (BothOfCentreParity f → 3 * (r / 2) + 2 < f.turn))) := by
  unfold rowReady linePlace
  rw [← bothSameParity_iff]
  simp only [h, if_true, turnOver, Bool.and_eq_true, Bool.or_eq_true, decide_eq_true_eq, Bool.not_eq_true',
    Option.isSome_iff_ne_none]
  refine and_congr_right fun _ => or_congr_right (and_congr ?_ ?_)
  · rw [← Nat.not_lt, ← imp_iff_not_or]
  · cases bothSameParity f <;> simp
    omega

/-- When a missing row is ready (R87, R92). -/
theorem rowReady_missing {f : Frame} {r : Nat} (h : supplies f.centre.parity r = false) : rowReady f r = true ↔
    (OppositeParity f .pred → 3 * (r / 2) + 1 < f.turn) ∧ (OppositeParity f .succ → 3 * (r / 2) + 2 < f.turn) := by
  unfold rowReady linePlace
  rw [← oppositeSource_iff, ← oppositeSource_iff]
  cases oppositeSource f .pred <;> cases oppositeSource f .succ <;> simp [h, turnOver]

/-! ### Lines kept for later rows (R87, R91) -/

/-- A line's last use goes by its role and number alone. -/
theorem lastUse_congr (f : Frame) {x y : Fetched} (hrole : x.role = y.role) (hline : x.line = y.line) :
    lastUse f x = lastUse f y := by
  unfold lastUse
  rw [hrole, hline]

/-- A TOP centre: its lines and those of the opposite parity are used last by the missing row behind their own place, those
of a neighbour of its parity by their own row. -/
theorem lastUse_top {f : Frame} (hp : f.centre.parity = .top) (x : Fetched) : lastUse f x = min (2 * f.height - 1)
    (if x.role = .centre ∨ oppositeSource f x.role = true then 2 * x.line + 2 else 2 * x.line - 1) := by
  unfold lastUse
  rw [hp]
  by_cases hc : x.role = .centre <;> by_cases ho : oppositeSource f x.role = true <;> simp [hc, ho]

/-- A BOTTOM centre: its lines are used last by the missing row below their own, those of a neighbour at their own place. -/
theorem lastUse_bottom {f : Frame} (hp : f.centre.parity = .bottom) (x : Fetched) : lastUse f x = min (2 * f.height - 1)
    (if x.role = .centre then 2 * x.line + 3 else if oppositeSource f x.role = true then 2 * x.line + 1 else 2 * x.line) := by
  unfold lastUse
  rw [hp]

/-- Two neighbours of the centre's parity are not of the opposite one. -/
theorem oppositeSource_of_both {f : Frame} {role : Role} (h : BothOfCentreParity f) (hrole : role ≠ .centre) :
    oppositeSource f role = false := by
  obtain ⟨p, q, hp, hq, hpp, hqp⟩ := h
  rw [← Bool.not_eq_true, oppositeSource_iff]
  rintro ⟨x, hx, hne⟩
  cases role with
  | centre => exact hrole rfl
  | pred => exact hne (Option.some.inj (hx.symm.trans hp) ▸ hpp)
  | succ => exact hne (Option.some.inj (hx.symm.trans hq) ▸ hqp)

/-- The place of a row in the build order of a TOP centre (R87). -/
theorem place_of_rowAt_top {h place r : Nat} (hpos : 0 < place) (hr : r = rowAt .top h place) :
    (r % 2 = 0 → place + 1 = r) ∧ (r % 2 = 1 → place ≤ r + 1) := by
  subst hr
  unfold rowAt
  dsimp only
  split
  · omega
  · split <;> omega

/-- The place of a row in the build order of a BOTTOM centre (R87). -/
theorem place_of_rowAt_bottom {h place r : Nat} (hr : r = rowAt .bottom h place) :
    (r % 2 = 1 → place + 1 = r) ∧ (r % 2 = 0 → place = r + 1) := by
  subst hr
  unfold rowAt
  dsimp only
  split <;> omega

section

variable {f : Frame} {role : Role} {k place : Nat} (hplace : place < 2 * f.height)
  (h : UsesLine f (rowAt f.centre.parity f.height place) role k)

include hplace h

theorem place_le_lastUse_top (hp : f.centre.parity = .top) (hpos : 0 < place) : place ≤ lastUse f ⟨role, k, none⟩ := by
  unfold UsesLine at h
  rw [hp] at h
  obtain ⟨heven, hodd⟩ := place_of_rowAt_top (h := f.height) hpos rfl
  generalize rowAt .top f.height place = r at h heven hodd
  have hparity : supplies .top r = true ↔ r % 2 = 0 := beq_iff_eq
  rw [lastUse_top hp]
  dsimp only
  split at h
  · next hs =>
    have hmod := hparity.1 hs
    have hr := heven hmod
    rcases h with ⟨hrole, hk⟩ | ⟨hrole, hk, hboth⟩
    · rw [if_pos (.inl hrole)]
      omega
    · rw [if_neg (not_or.2 ⟨hrole, by simp [oppositeSource_of_both hboth hrole]⟩)]
      omega
  · next hs =>
    have hr := hodd (Nat.mod_two_ne_zero.1 (mt hparity.2 hs))
    rcases h with ⟨hrole, hk⟩ | ⟨hrole, hk, hopposite⟩
    · rw [if_pos (.inl hrole)]
      omega
    · rw [if_pos (.inr ((oppositeSource_iff f role).2 hopposite))]
      omega

theorem place_le_lastUse_bottom (hp : f.centre.parity = .bottom) : place ≤ lastUse f ⟨role, k, none⟩ := by
  unfold UsesLine at h
  rw [hp] at h
  obtain ⟨hodd, heven⟩ := place_of_rowAt_bottom (h := f.height) (place := place) rfl
  generalize rowAt .bottom f.height place = r at h heven hodd
  have hparity : supplies .bottom r = true ↔ r % 2 = 1 := beq_iff_eq
  rw [lastUse_bottom hp]
  dsimp only
  split at h
  · next hs =>
    have hr := hodd (hparity.1 hs)
    rcases h with ⟨hrole, hk⟩ | ⟨hrole, hk, hboth⟩
    · rw [if_pos hrole]
      omega
    · rw [if_neg hrole, oppositeSource_of_both hboth hrole, if_neg Bool.false_ne_true]
      omega
  · next hs =>
    have hr := heven (Nat.mod_two_ne_one.1 (mt hparity.2 hs))
    rcases h with ⟨hrole, hk⟩ | ⟨hrole, hk, hopposite⟩
    · rw [if_pos hrole]
      omega
    · rw [if_neg hrole, if_pos ((oppositeSource_iff f role).2 hopposite)]
      omega

/-- A line that the row at a later place may use is kept until then (R87, R91, R92). -/
theorem place_le_lastUse (hpos : 0 < place) : place ≤ lastUse f ⟨role, k, none⟩ := by
  cases hp : f.centre.parity with
  | top => exact place_le_lastUse_top hplace h hp hpos
  | bottom => exact place_le_lastUse_bottom hplace h hp

end

/-- A repaired line keeps its role and number. -/
theorem keepRepair_key (r : Nat) (row : Row) (f : Frame) (x : Fetched) :
    (keepRepair r row f x).role = x.role ∧ (keepRepair r row f x).line = x.line := by
  unfold keepRepair
  split <;> exact ⟨rfl, rfl⟩

/-- A line that a later place may use stays as it was fetched, the line of the row built as that row (R87, R91). -/
theorem fetchedLine_afterBuild {f : Frame} {role : Role} {k : Nat} (sc : ScalerFrame) (r : Nat) (b : Built)
    (hlater : f.rowsBuilt < lastUse f ⟨role, k, none⟩) : fetchedLine (afterBuild sc r b f) role k =
      if supplies f.centre.parity r = true ∧ role = .centre ∧ k = r / 2 then (fetchedLine f role k).map (fun _ => some b.row)
      else fetchedLine f role k := by
  obtain ⟨asked, hasked⟩ : ∃ q : Fetched → Bool, q = fun x => decide (x.role = role) && x.line == k := ⟨_, rfl⟩
  have hkey : ∀ x, asked x = true → x.role = role ∧ x.line = k := fun x hx => by simpa [hasked] using hx
  have hkept : (fun x => decide (decide (f.rowsBuilt + 1 ≤ lastUse f x) = true ∧ asked x = true)) ∘ keepRepair r b.row f =
      asked := by
    funext x
    obtain ⟨hrole, hline⟩ := keepRepair_key r b.row f x
    have hsame : asked (keepRepair r b.row f x) = asked x := by simp only [hasked, hrole, hline]
    cases hx : asked x with
    | false => simp [hsame, hx]
    | true =>
      have huse : lastUse f (keepRepair r b.row f x) = lastUse f ⟨role, k, none⟩ :=
        lastUse_congr f (hrole.trans (hkey x hx).1) (hline.trans (hkey x hx).2)
      simp [hsame, hx, huse, hlater]
  unfold fetchedLine afterBuild
  dsimp only
  rw [← hasked, List.find?_filter, List.find?_map, hkept]
  cases hx : f.lines.find? asked with
  | none => simp
  | some x =>
    obtain ⟨hrole, hline⟩ := hkey x (List.find?_some hx)
    simp only [Option.map_some, keepRepair, linePlace, hrole, hline]
    split <;> rfl

/-! ### The Sample Probe at a row (R102, R175) -/

/-- The account of row `r`, built as `b` of frame `f`, meets the condition of an arm record (R175). -/
theorem conditionHolds_iff (arm : Arm) (ch : Channel) (f : Frame) (b : Built) :
    conditionHolds arm (accountOf ch f b) = true ↔ (match arm.cond with
      | .any => True
      | .film => ∃ q, b.mode = .film q
      | .video => b.mode = .video
      | .fallback => b.fellBack = true
      | .motionAtLeast => arm.m ≤ b.est.m) := by
  unfold conditionHolds accountOf
  cases arm.cond <;> cases b.mode <;> simp

section

variable {c : Chan} {f : Frame} {r : Nat} {b : Built} {s : State}

/-- A row that the armed probe waits for is captured, with its event. -/
theorem probeRow_hit {arm : Arm} (harm : s.probe = .armed arm)
    (h : f.first = true ∧ arm.chan = c ∧ arm.row = r ∧ conditionHolds arm (accountOf (s.ch c) f b) = true) :
    probeRow c f r b s =
      raise c .probeHit f.centre.num { s with probe := .captured arm (accountOf (s.ch c) f b) } := by
  unfold probeRow
  rw [harm]
  exact if_pos h

/-- Any other row leaves the state. -/
theorem probeRow_miss (h : ∀ arm, s.probe = .armed arm →
      ¬ (f.first = true ∧ arm.chan = c ∧ arm.row = r ∧ conditionHolds arm (accountOf (s.ch c) f b) = true)) :
    probeRow c f r b s = s := by
  unfold probeRow
  cases harm : s.probe with
  | armed arm => exact if_neg (h arm harm)
  | idle => rfl
  | captured arm x => rfl

/-- The row counts only for an armed probe. -/
theorem probeRow_congr {b' : Built} (h : ∀ arm, s.probe = .armed arm → b' = b) :
    probeRow c f r b' s = probeRow c f r b s := by
  unfold probeRow
  cases harm : s.probe with
  | armed arm => rw [h arm harm]
  | idle => rfl
  | captured arm x => rfl

/-- The probe leaves the channels but for the reports of its own. -/
theorem probeRow_ch : (∀ e, e ≠ c → (probeRow c f r b s).ch e = s.ch e) ∧
    ((probeRow c f r b s).ch c).engine = (s.ch c).engine := by
  by_cases h : ∀ arm, s.probe = .armed arm →
      ¬ (f.first = true ∧ arm.chan = c ∧ arm.row = r ∧ conditionHolds arm (accountOf (s.ch c) f b) = true)
  · rw [probeRow_miss h]
    exact ⟨fun _ _ => rfl, rfl⟩
  · push Not at h
    obtain ⟨arm, harm, hhit⟩ := h
    rw [probeRow_hit harm hhit]
    refine ⟨fun e he => raise_ch_ne c _ he _ _, ?_⟩
    rw [raise_ch_same]
    rfl

end

end Sys2Proof.Machine
end

section
/-! SUPPORT. The clauses of BlendLiesBetween that speak of a whole frame or of the state: the read plan, the run, the rows built
one by one, and the state that a row built leaves. -/

namespace Sys2Proof.Machine

open Sys2Proof

/-- A turn of the read plan (R85, R86): none while the engine must wait, else a skip or a read raised. -/
theorem nextTurn_spec (busy : Bool) (ring : List FieldRecord) (f : Frame) {role : Role} {k : Nat}
    (hrole : role = turnRole f.turn) (hk : k = turnLine f.turn) :
    (f.read = .idle → f.turn < 3 * f.height → f.cache.length < 12 →
      (¬ ReadAtItsTurn ring f role k → nextTurn busy ring f =
        some { f with lines := f.lines ++ [⟨role, k, none⟩], turn := f.turn + 1 }) ∧
      (ReadAtItsTurn ring f role k → nextTurn busy ring f = if busy then none else some { f with read := .pending })) ∧
    ((f.read ≠ .idle ∨ 3 * f.height ≤ f.turn ∨ 12 ≤ f.cache.length) → nextTurn busy ring f = none) := by
  subst hrole
  subst hk
  refine ⟨fun hread hturn hcache => ?_, fun h => nextTurn_closed h busy ring⟩
  rw [nextTurn_open hread hturn hcache, ← lineNeeded_iff]
  exact ⟨fun h => if_neg h, fun h => if_pos h⟩

/-- The run of an engine that has no row to build: a turn, or the end (R85, R87). -/
theorem runEngine_spec {c : Chan} {s : State} {f : Frame} {busy : Bool} (hf : (s.ch c).engine = some f)
    (hbuild : buildNext c s = none) (hbusy : busy = true ↔
      ∃ slot line role num live present, s.arbiter.burst = some (.read c slot line role num live present)) (fuel : Nat) :
    (∀ g, nextTurn busy (s.ch c).ring f = some g →
      runEngine c (fuel + 1) s = runEngine c fuel (s.setCh c { s.ch c with engine := some g })) ∧
    (nextTurn busy (s.ch c).ring f = none → runEngine c (fuel + 1) s = s) := by
  have hturn := turnNext_of_frame hf hbusy
  refine ⟨fun g hg => runEngine_of_turn hbuild ?_ fuel, fun hnone => runEngine_of_waiting hbuild ?_ (fuel + 1)⟩
  · rw [hturn, hg, Option.map_some]
  · rw [hturn, hnone, Option.map_none]

/-- An existing row with its account: the line delivered, or its repair (R91, R102). -/
theorem existingRow_spec {f : Frame} {r k col : Nat} {b : Built} (hk : k = r / 2) (hb : b = buildRow f r col)
    (h : supplies f.centre.parity r = true) :
    b.fallbacks = 0 ∧ b.mode = f.mode ∧ b.fellBack = false ∧
    b.est = ⟨b.row.y.getD col 0, none, 0, 64, b.row.y.getD col 0⟩ ∧
    (∀ a, usableRow f .centre k = some a → b.row = a) ∧
    (usableRow f .centre k = none → ∀ above below : Option Row,
      above = (if k = 0 then none else usableRow f .centre (k - 1)) →
      below = (if f.height ≤ k + 1 then none else usableRow f .centre (k + 1)) →
      (∀ u v, above = some u → below = some v → AverageOf u v b.row) ∧
      (∀ u, above = some u → below = none → b.row = u) ∧ (∀ v, above = none → below = some v → b.row = v) ∧
      (∀ p q, above = none → below = none → bothSameParity f = true → usableRow f .pred k = some p →
        usableRow f .succ k = some q → AverageOf p q b.row) ∧
      (above = none → below = none →
        (bothSameParity f = false ∨ usableRow f .pred k = none ∨ usableRow f .succ k = none) →
        b.row = colourRow 720 ⟨64, 512, 512⟩)) := by
  rw [buildRow_existing h, ← hk] at hb
  obtain ⟨hdelivered, hrepaired⟩ := buildExisting_row f k col
  subst hb
  refine ⟨rfl, rfl, rfl, rfl, hdelivered, fun hlisted above below habove hbelow => ?_⟩
  rw [hrepaired hlisted]
  obtain ⟨hboth, honly⟩ := repairedRow_beside habove hbelow
  have halone := fun hu hv => repairedRow_alone habove hbelow hu hv
  exact ⟨hboth, honly.1, honly.2, fun p q hu hv => (halone hu hv).1 p q, fun hu hv => (halone hu hv).2⟩

section

variable {f : Frame} {r k col : Nat} {a d : Row} {temporal : Option (Row × Row)} {b : Built} {video : Row}
  (hk : k = r / 2) (hb : b = buildRow f r col) (hmissing : supplies f.centre.parity r = false)
  (hbeside : rowsBeside f r = (a, d)) (htemporal : temporalRows f false k = temporal)
  (hvideo : video = videoRow f.curve a d temporal)

include hk hb hmissing hbeside htemporal hvideo

/-- A missing row without a usable partner, with its account (R95, R97, R102). -/
theorem videoBuilt_spec (hpartner : partnerRow f k = none) :
    b.row = video ∧ b.fallbacks = 0 ∧ b.fellBack = false ∧ b.est = videoLuma f.curve a d temporal col := by
  rw [buildRow_video col hk hmissing hbeside htemporal hpartner] at hb
  subst hb
  subst hvideo
  exact ⟨rfl, rfl, rfl, rfl⟩

/-- A missing row with a usable partner, sample by sample, with its account (R97, R98, R102). -/
theorem wovenBuilt_spec {p : Row} {woven : Nat → Bool} (hpartner : partnerRow f k = some p)
    (hwoven : ∀ x, wovenCombs f.comb p a d x = !woven x) :
    (∀ x, x < 720 → b.row.y.getD x 0 = if woven x then p.y.getD x 0 else video.y.getD x 0) ∧
    (∀ j, j < 360 → b.row.cb.getD j 0 = (if woven (2 * j) then p.cb.getD j 0 else video.cb.getD j 0) ∧
      b.row.cr.getD j 0 = (if woven (2 * j) then p.cr.getD j 0 else video.cr.getD j 0)) ∧
    b.fallbacks = (List.range 720).countP (fun x => !woven x) ∧ b.fellBack = !woven col ∧
    b.est = (if woven col then { videoLuma f.curve a d temporal col with
        t := some (p.y.getD col 0), w := 0, o := p.y.getD col 0 } else videoLuma f.curve a d temporal col) := by
  rw [buildRow_woven col hk hmissing hbeside htemporal hpartner] at hb
  subst hb
  subst hvideo
  dsimp only
  rw [combCount_eq hwoven, hwoven col, wovenLuma_eq hwoven temporal col]
  exact ⟨fun x hx => wovenRow_luma hwoven temporal hx, fun j hj => wovenRow_chroma hwoven temporal hj, rfl, rfl, rfl⟩

end

/-- The frame after a row was built: counted, and in the cache while it awaits release (R87, R98, R111). -/
theorem afterBuild_eq (sc : ScalerFrame) (r : Nat) (b : Built) (f : Frame) : afterBuild sc r b f = { f with
    rowsBuilt := f.rowsBuilt + 1
    cache := if LowestRow sc sc.nextLine ≤ r ∧ r < sc.bandFirst + sc.bandCount then f.cache ++ [(r, b.row)] else f.cache
    fallback := if f.first then min 65535 (f.fallback + b.fallbacks) else f.fallback
    lines := (afterBuild sc r b f).lines } := by
  have hawaited : (rowAwaited sc r = true) = (LowestRow sc sc.nextLine ≤ r ∧ r < sc.bandFirst + sc.bandCount) := by
    rw [rowAwaited_eq, Bool.and_eq_true, decide_eq_true_eq, decide_eq_true_eq]
  unfold afterBuild
  simp only [hawaited, satAdd]

/-- What the Sample Probe takes of a row built (R102, R175): `u` is the state with the row in its channel's frame. -/
theorem probeRow_spec {c : Chan} {s u : State} {f g : Frame} {r : Nat} {b : Built}
    (hu : u = s.setCh c { s.ch c with engine := some g }) {hit : Prop}
    (hhit : hit ↔ ∃ arm, s.probe = .armed arm ∧ arm.chan = c ∧ arm.row = r ∧ f.first = true ∧
      conditionHolds arm (accountOf (s.ch c) f b) = true) :
    (¬ hit → (probeRow c f r b u).probe = s.probe ∧ ((probeRow c f r b u).ch c).rep = (s.ch c).rep) ∧
    (hit → (∀ arm, s.probe = .armed arm → (probeRow c f r b u).probe = .captured arm (accountOf (s.ch c) f b)) ∧
      ((probeRow c f r b u).ch c).rep = ((raise c .probeHit f.centre.num s).ch c).rep) := by
  have hch : u.ch c = { s.ch c with engine := some g } := by rw [hu, State.ch_setCh_same]
  have hprobe : u.probe = s.probe := by rw [hu, State.probe_setCh]
  have hload : u.loader = s.loader := by rw [hu, State.loader_setCh]
  have haccount : accountOf (u.ch c) f b = accountOf (s.ch c) f b := by rw [hch]; rfl
  constructor
  · intro hno
    rw [probeRow_miss fun arm harm ⟨hfirst, hchan, hrow, hcond⟩ =>
      hno (hhit.2 ⟨arm, hprobe ▸ harm, hchan, hrow, hfirst, haccount ▸ hcond⟩), hch]
    exact ⟨hprobe, rfl⟩
  · intro hyes
    obtain ⟨arm, harm, hchan, hrow, hfirst, hcond⟩ := hhit.1 hyes
    rw [probeRow_hit (hprobe.trans harm) ⟨hfirst, hchan, hrow, haccount ▸ hcond⟩, haccount]
    obtain ⟨v, hv⟩ : ∃ v : State, v = { u with probe := .captured arm (accountOf (s.ch c) f b) } := ⟨_, rfl⟩
    have hvch : v.ch c = { s.ch c with engine := some g } := by rw [← hch, hv]; rfl
    rw [← hv]
    refine ⟨fun arm' harm' => ?_,
      raise_rep_congr (by rw [hvch]) (by rw [hvch]) (by rw [hv]; exact hload) _ _⟩
    obtain rfl : arm = arm' := Probe.armed.inj (harm.symm.trans harm')
    rw [raise_eq_setCh, State.probe_setCh, hv]

/-- The row that is next, once ready, is built: what it leaves of its frame, of its channel's lines, of the other channels and of
the probe (R87, R91, R102, R111, R175). -/
theorem rowBuilt_spec {c : Chan} {s : State} {f : Frame} {sc : ScalerFrame} {r col : Nat} (hf : (s.ch c).engine = some f)
    (hsc : (s.ch c).scaler = some sc) (hr : r = rowAt f.centre.parity f.height f.rowsBuilt)
    (hmore : f.rowsBuilt < 2 * f.height) (hdelivered : f.delivered = true) (hroom : f.cache.length < 12)
    (hready : rowReady f r = true) (hcol : ∀ arm, s.probe = .armed arm → col = arm.column) {b : Built}
    (hb : b = buildRow f r col) :
    ∃ t, buildNext c s = some t ∧ (t.ch c).engine = some (afterBuild sc r b f) ∧ (∀ e, e ≠ c → t.ch e = s.ch e) ∧
      ∀ hit : Prop, (hit ↔ ∃ arm, s.probe = .armed arm ∧ arm.chan = c ∧ arm.row = r ∧ f.first = true ∧
        conditionHolds arm (accountOf (s.ch c) f b) = true) →
        (¬ hit → t.probe = s.probe ∧ (t.ch c).rep = (s.ch c).rep) ∧
        (hit → (∀ arm, s.probe = .armed arm → t.probe = .captured arm (accountOf (s.ch c) f b)) ∧
          (t.ch c).rep = ((raise c .probeHit f.centre.num s).ch c).rep) := by
  obtain ⟨u, hu⟩ : ∃ u, u = s.setCh c { s.ch c with engine := some (afterBuild sc r b f) } := ⟨_, rfl⟩
  have hbuild : buildNext c s = some (probeRow c f r b u) := by
    obtain ⟨b', hb'⟩ : ∃ b', b' = buildRow f r (probeColumn s.probe) := ⟨_, rfl⟩
    obtain ⟨hrow, hfallbacks⟩ := buildRow_column f r (probeColumn s.probe) col
    rw [← hb, ← hb'] at hrow hfallbacks
    have hafter : afterBuild sc r b' f = afterBuild sc r b f := by unfold afterBuild; rw [hrow, hfallbacks]
    rw [buildNext_of_ready hf hsc hmore hdelivered hroom hr hready hb', hafter, ← hu]
    refine congrArg some (probeRow_congr fun arm harm => ?_)
    rw [hu, State.probe_setCh] at harm
    rw [hb', hb, hcol arm harm, harm]
    rfl
  obtain ⟨hother, hengine⟩ := probeRow_ch (c := c) (f := f) (r := r) (b := b) (s := u)
  refine ⟨_, hbuild, hengine.trans ?_, fun e he => (hother e he).trans ?_, fun hit hhit => probeRow_spec hu hhit⟩
  · rw [hu, State.ch_setCh_same]
  · rw [hu, State.ch_setCh_ne s he]

/-- Settles O51: the turns and the run, the build order, the estimates and the blend, and the rows built with what each leaves. -/
theorem blendLiesBetween : Obligations.BlendLiesBetween := by
  refine ⟨fun busy ring f role k h => ?_, fun c s => ⟨runEngine_without_frame, fun f busy fuel hf hbuild hbusy =>
      runEngine_spec hf hbuild hbusy fuel, fun f hf h => buildNext_waiting hf h, rfl⟩,
    fun h k => ⟨(rowAt_top h k).1, (rowAt_top h k).2, fun _ => rowAt_bottom h k⟩, ?_, fun w a b hw => blend_between hw a b,
    blend_extremes, fun i image m h => motionWeight_le_of_valid h m, fun curve a b temporal x hcurve =>
      videoLuma_between a b hcurve temporal x rfl, fun curve a b p q x e => ⟨?_, fun he => videoLuma_some curve a b p q x he⟩,
    ?_, fun f r k col b hk _ hb h => existingRow_spec hk hb h, ?_, ?_⟩
  · obtain ⟨hrole, hk⟩ := Prod.mk.inj h
    exact nextTurn_spec busy ring f hrole hk
  · rintro f r k rfl
    exact ⟨rowReady_existing, rowReady_missing⟩
  · rintro rfl
    exact ⟨spatialAt_spatialLuma .., rfl⟩
  · rintro curve a b temporal row rfl
    refine ⟨fun x hx => videoRow_luma curve a b temporal hx, fun j hj => ?_, fun j p q w hj => ?_⟩
    · rintro rfl
      exact videoRow_chroma_spatial curve a b hj
    · rintro rfl hw
      exact videoRow_chroma_blended curve a b p q hj hw
  · intro f r k col a d temporal b video hk hr hb hmissing ha hd htemporal hvideo
    have hbeside := rowsBeside_of_usable hr ha hd
    have hrows : temporalRows f false k = temporal := Option.ext fun ⟨p, q⟩ => by
      rw [temporalRows_eq_some_iff, htemporal]
      simp [and_assoc]
    refine ⟨hb ▸ buildRow_mode f r col, fun h => videoBuilt_spec hk hb hmissing hbeside hrows hvideo (partnerRow_eq_none h),
      fun p woven h hwoven => wovenBuilt_spec hk hb hmissing hbeside hrows hvideo (partnerRow_eq_some h)
        (wovenCombs_eq_not hwoven)⟩
  · intro c s f sc r col hf hsc hr hmore hdelivered hroom hready hcol
    obtain ⟨b, hb⟩ : ∃ b, b = buildRow f r col := ⟨_, rfl⟩
    obtain ⟨t, hbuild, hengine, hother, hprobe⟩ := rowBuilt_spec hf hsc hr hmore hdelivered hroom hready hcol hb
    refine ⟨t, _, b, hb, hbuild, runEngine_of_built hbuild, hengine, afterBuild_eq sc r b f,
      fun role k place hlater hplace h => ?_, hother, fun hit hhit => hprobe hit ?_⟩
    · have hkept := place_le_lastUse hplace h (Nat.zero_lt_of_lt hlater)
      exact fetchedLine_afterBuild sc r b (hlater.trans_le hkept)
    · simp only [conditionHolds_iff]
      exact hhit

end Sys2Proof.Machine
end

section
/-! SUPPORT. Which items of the device each command can reach (R47, R52, R114 to R120, R141, R150, R157, R165): the address, the
Reference Timing Unit and the number of output frame starts, the tables, and the DRAM with its stored errors. -/

namespace Sys2Proof.Machine

open Sys2Proof

/-! ### Directives and read bursts -/

/-- `t` differs from `s` at most in what directives other than RESTART DEVICE and the words of a read burst reach: the
channels, the arbiter, the probe, the load with its shadow, the Error Capture record and the option that inhibits it. -/
def KeepsStore (s t : State) : Prop :=
  t = { s with chans := t.chans, arbiter := t.arbiter, probe := t.probe, loader := t.loader, shadow := t.shadow,
               capture := t.capture, inhibitSingle := t.inhibitSingle, inhibitBefore := t.inhibitBefore }

section

variable {s t u : State}

theorem KeepsStore.trans (h : KeepsStore s t) (k : KeepsStore t u) : KeepsStore s u := by
  unfold KeepsStore at *
  rw [k, h]

theorem KeepsDevice.store (h : KeepsDevice s t) : KeepsStore s t := by
  unfold KeepsDevice at h
  unfold KeepsStore
  rw [h]

theorem KeepsStore.tables (h : KeepsStore s t) : t.tables = s.tables := by rw [h]
theorem KeepsStore.dram (h : KeepsStore s t) : t.dram = s.dram := by rw [h]
theorem KeepsStore.dramErrs (h : KeepsStore s t) : t.dramErrs = s.dramErrs := by rw [h]

end

section

variable (c : Chan) (s : State) (n : Nat) (d : Directive)

theorem keepsStore_doResetChannel : KeepsStore s (doResetChannel c d s) := by
  have hflushed : KeepsDevice s ((flushRing c (abandonFrame c s)).modCh c resetChannelPart) :=
    ((keepsDevice_abandonFrame c s).trans (keepsDevice_flushRing c _)).trans (keepsDevice_modCh c _ _)
  have haborted : ∀ (r : Option HaltRecord) (l : LoadState) (u : State), KeepsDevice u (abortCommit c l (abortHalt c r u)) := by
    intro r l u
    have hhalt : KeepsDevice u (abortHalt c r u) := by unfold abortHalt; split <;> rfl
    unfold abortCommit
    split
    · split
      · exact hhalt.trans (keepsDevice_answer ..)
      · exact hhalt
    · exact hhalt
    · exact hhalt
  have hreleased : ∀ (p : Probe) (l : LoadState) (shadow : List Byte), KeepsStore s
      { (flushRing c (abandonFrame c s)).modCh c resetChannelPart with probe := p, loader := l, shadow := shadow } :=
    fun _ _ _ => hflushed.store.trans rfl
  unfold doResetChannel
  dsimp only
  split
  · exact (hreleased ..).trans (((haborted _ _ _).trans (keepsDevice_answer ..)).trans (keepsDevice_raise ..)).store
  · exact (hreleased ..).trans ((haborted _ _ _).trans (keepsDevice_answer ..)).store

/-- The directives to a channel other than RESET CHANNEL. -/
theorem keepsStore_channelDirectives :
    KeepsStore s (doProbe c d s) ∧ KeepsStore s (doSetFormat c n d s) ∧ KeepsStore s (doSetParameters c n d s) ∧
    KeepsStore s (doStart c d s) ∧ KeepsStore s (doHalt c n d s) ∧ KeepsStore s (doReadStats c d s) := by
  refine ⟨rfl, ?_, ?_, ?_, ?_, ?_⟩
  · unfold doSetFormat
    split <;> rfl
  · unfold doSetParameters
    split
    · rfl
    · dsimp only
      split
      · exact (((keepsDevice_modCh c _ s).trans (keepsDevice_deliverHeld ..)).trans (keepsDevice_answer ..)).store
      · rfl
  · unfold doStart
    split
    · split <;> rfl
    · rfl
  · unfold doHalt
    split <;> rfl
  · unfold doReadStats
    split <;> rfl

/-- The load directives: they reach the load and its shadow, and no table. -/
theorem keepsStore_loadDirectives :
    KeepsStore s (doLoadBegin c d s) ∧ KeepsStore s (doLoadSegment c d s) ∧ KeepsStore s (doLoadCommit c n d s) ∧
    KeepsStore s (doLoadAbort c d s) ∧ KeepsStore s (doReadTable c d s) := by
  refine ⟨?_, ?_, ?_, ?_, ?_⟩
  · unfold doLoadBegin
    split
    · rfl
    · split <;> rfl
    · rfl
    · rfl
  · unfold doLoadSegment
    split
    · rfl
    · rfl
    · dsimp only
      split
      · rfl
      · split <;> rfl
  · unfold doLoadCommit
    split
    · rfl
    · rfl
    · split
      · rfl
      · split
        · rfl
        · split <;> rfl
  · unfold doLoadAbort
    split
    · rfl
    · rfl
    · split <;> rfl
  · unfold doReadTable
    split
    · rfl
    · dsimp only
      split <;> rfl

/-- The directives to the device other than RESTART DEVICE. -/
theorem keepsStore_deviceDirectives :
    KeepsStore s (doDeviceStatus c d s) ∧ KeepsStore s (doClearErrors c d s) ∧ KeepsStore s (doSetDeviceOptions c d s) ∧
    KeepsStore s (doArmProbe c d s) ∧ KeepsStore s (doReadProbe c d s) := by
  refine ⟨rfl, rfl, ?_, ?_, rfl⟩
  · unfold doSetDeviceOptions
    split <;> rfl
  · unfold doArmProbe
    split
    · rfl
    · split <;> rfl

/-- Of the directives RESTART DEVICE alone reaches further (R165). -/
theorem keepsStore_carryOutKind {k : DirKind} (hk : k ≠ .restartDevice) : KeepsStore s (carryOutKind k c n d s) := by
  obtain ⟨hprobe, hformat, hparams, hstart, hhalt, hstats⟩ := keepsStore_channelDirectives c s n d
  obtain ⟨hbegin, hsegment, hcommit, habort, htable⟩ := keepsStore_loadDirectives c s n d
  obtain ⟨hstatus, hclear, hoptions, harm, hread⟩ := keepsStore_deviceDirectives c s d
  cases k with
  | probe => exact hprobe
  | setFormat => exact hformat
  | setParameters => exact hparams
  | start => exact hstart
  | halt => exact hhalt
  | resetChannel => exact keepsStore_doResetChannel c s d
  | readStats => exact hstats
  | loadBegin => exact hbegin
  | loadSegment => exact hsegment
  | loadCommit => exact hcommit
  | loadAbort => exact habort
  | readTable => exact htable
  | deviceStatus => exact hstatus
  | clearErrors => exact hclear
  | setDeviceOptions => exact hoptions
  | armProbe => exact harm
  | readProbe => exact hread
  | restartDevice => exact absurd rfl hk

theorem keepsStore_carryOut (hk : dirKind? d.kind ≠ some .restartDevice) : KeepsStore s (carryOut c n d s) := by
  unfold carryOut
  split
  · rfl
  · next k hkind =>
    split
    · rfl
    · exact keepsStore_carryOutKind c s n d fun h => hk (hkind.trans (congrArg some h))

end

/-- The row of a directive other than RESTART DEVICE. -/
theorem keepsStore_takeKind {k : Option DirKind} (hk : k ≠ some .restartDevice) (c : Chan) (s : State) :
    KeepsStore s (takeKind c k s) := by
  unfold takeKind
  split
  · rfl
  · next d rest hqueue =>
    split
    · next hkind =>
      unfold takeNext
      rw [hqueue]
      dsimp only
      split
      · rfl
      · split
        · exact KeepsStore.trans (t := s.modCh c (leaveQueue rest)) rfl (keepsStore_carryOut c _ _ d (hkind ▸ hk))
        · rfl
    · rfl

/-- A word of a read burst is counted, raised, offered to the record and listed (R54 to R58). -/
theorem keepsStore_checkWord (c : Chan) (slot : Fin 8) (k field num : Nat) (offer : Bool) (inhibited : Nat → Bool)
    (s : State) (w : Nat) : KeepsStore s (checkWord c slot k field num offer inhibited s w) := by
  have hraised : ∀ (e : EventKind) (f : Channel → Channel), KeepsStore s (raise c e field (s.modCh c f)) := fun e f =>
    ((keepsDevice_modCh c f s).trans (keepsDevice_raise ..)).store
  unfold checkWord
  split
  · rfl
  · split
    · rfl
    · unfold singleWord
      dsimp only
      split
      · exact hraised _ _
      · exact (hraised _ _).trans rfl
    · unfold doubleWord
      dsimp only
      split
      · exact (hraised _ _).trans rfl
      · exact (hraised _ _).trans rfl

/-- A read burst stores the errors that struck its line, and else reaches no memory (R52, R54). -/
theorem keepsStore_readDelivered (c : Chan) (slot : Fin 8) (k num : Nat) (live present : Bool) (strikes : List Strike)
    (read : List Nat) (s : State) :
    KeepsStore (strikeLine c slot k strikes s) (readDelivered c slot k num live present strikes read s) := by
  have hchecked : KeepsStore (strikeLine c slot k strikes s)
      (checkLine c slot k num live present read (strikeLine c slot k strikes s)) :=
    List.foldlRecOn (motive := KeepsStore _) _ _ rfl fun u hu w _ => hu.trans (keepsStore_checkWord ..)
  unfold readDelivered handLine
  generalize checkLine c slot k num live present read (strikeLine c slot k strikes s) = u at hchecked ⊢
  refine hchecked.trans ?_
  split <;> rfl

/-! ### The address, the Reference Timing Unit and the count of output frame starts -/

/-- `t` holds the address, the Reference Timing Unit, the time, the number of output frame starts and the queue of commands
of `s`. -/
structure KeepsTiming (s t : State) : Prop where
  deviceAddress : t.deviceAddress = s.deviceAddress
  rtu           : t.rtu = s.rtu
  now           : t.now = s.now
  startNo       : t.startNo = s.startNo
  pending       : t.pending = s.pending

section

variable {s t u : State}

theorem KeepsTiming.refl (s : State) : KeepsTiming s s := ⟨rfl, rfl, rfl, rfl, rfl⟩

theorem KeepsTiming.trans (h : KeepsTiming s t) (k : KeepsTiming t u) : KeepsTiming s u :=
  ⟨k.deviceAddress.trans h.deviceAddress, k.rtu.trans h.rtu, k.now.trans h.now, k.startNo.trans h.startNo,
    k.pending.trans h.pending⟩

theorem KeepsStore.timing (h : KeepsStore s t) : KeepsTiming s t := by
  unfold KeepsStore at h
  constructor <;> rw [h]

theorem KeepsDevice.timing (h : KeepsDevice s t) : KeepsTiming s t := h.store.timing

end

theorem cutWordAt_eq (c : Chan) (slot : Fin 8) (k : Nat) (words : List Nat) (draw : Nat) (s : State) (w : Nat) :
    cutWordAt c slot k words draw s w = { s with
      dram := (cutWordAt c slot k words draw s w).dram, dramErrs := (cutWordAt c slot k words draw s w).dramErrs } := by
  unfold cutWordAt
  dsimp only
  split <;> rfl

/-- A write burst cut short reaches the DRAM and its stored errors (R52). -/
theorem cutBurst_eq (s : State) : cutBurst s =
    { s with dram := (cutBurst s).dram, dramErrs := (cutBurst s).dramErrs, draws := (cutBurst s).draws } := by
  unfold cutBurst
  split
  · next c slot k words _ =>
    have hfold : (List.range 240).foldl (cutWordAt c slot k words s.draws) s = { s with
        dram := ((List.range 240).foldl (cutWordAt c slot k words s.draws) s).dram
        dramErrs := ((List.range 240).foldl (cutWordAt c slot k words s.draws) s).dramErrs } :=
      List.foldlRecOn (motive := fun u : State => u = { s with dram := u.dram, dramErrs := u.dramErrs }) _ _ rfl
        fun u hu w _ => (cutWordAt_eq c slot k words s.draws u w).trans (by rw [hu])
    exact congrArg (fun u : State => { u with draws := s.draws + 1 }) hfold
  · rfl

/-- RESTART DEVICE keeps the timing (R122), and the tables (R142). -/
theorem deviceRestart_keeps (s : State) : KeepsTiming s (deviceRestart s) ∧ (deviceRestart s).tables = s.tables := by
  unfold deviceRestart
  rw [cutBurst_eq]
  exact ⟨⟨rfl, rfl, rfl, rfl, rfl⟩, rfl⟩

theorem carryOut_keeps (c : Chan) (n : Nat) (d : Directive) (s : State) :
    KeepsTiming s (carryOut c n d s) ∧ (carryOut c n d s).tables = s.tables := by
  by_cases hk : dirKind? d.kind = some .restartDevice
  · unfold carryOut
    rw [hk]
    dsimp only
    split
    · exact ⟨⟨rfl, rfl, rfl, rfl, rfl⟩, rfl⟩
    · exact deviceRestart_keeps s
  · exact ⟨(keepsStore_carryOut c s n d hk).timing, (keepsStore_carryOut c s n d hk).tables⟩

/-- No directive taken reaches the address, the timing or a table (R122, R141, R157). -/
theorem takeNext_keeps (c : Chan) (n : Nat) (s : State) :
    KeepsTiming s (takeNext c n s) ∧ (takeNext c n s).tables = s.tables := by
  unfold takeNext
  split
  · exact ⟨.refl s, rfl⟩
  · next d rest _ =>
    split
    · exact ⟨.refl s, rfl⟩
    · split
      · obtain ⟨htiming, htables⟩ := carryOut_keeps c n d (s.modCh c (leaveQueue rest))
        exact ⟨(keepsDevice_modCh c (leaveQueue rest) s).timing.trans htiming, htables⟩
      · exact ⟨(keepsDevice_modCh c takeNoMore s).timing, rfl⟩

theorem takeKind_keeps (c : Chan) (k : Option DirKind) (s : State) :
    KeepsTiming s (takeKind c k s) ∧ (takeKind c k s).tables = s.tables := by
  unfold takeKind
  split
  · exact ⟨.refl s, rfl⟩
  · split
    · exact takeNext_keeps c _ s
    · exact ⟨.refl s, rfl⟩

/-- What the loader reaches at an output frame start: its load, the tables, and the readers of a table that swaps (R150, R152). -/
def KeepsBesideTables (s t : State) : Prop :=
  t = { s with chans := t.chans, arbiter := t.arbiter, probe := t.probe, tables := t.tables, loader := t.loader,
               shadow := t.shadow, loaderDone := t.loaderDone }

theorem KeepsBesideTables.trans {s t u : State} (h : KeepsBesideTables s t) (k : KeepsBesideTables t u) :
    KeepsBesideTables s u := by
  unfold KeepsBesideTables at *
  rw [k, h]

theorem KeepsDevice.besideTables {s t : State} (h : KeepsDevice s t) : KeepsBesideTables s t := by
  unfold KeepsDevice at h
  unfold KeepsBesideTables
  rw [h]

theorem KeepsBesideTables.timing {s t : State} (h : KeepsBesideTables s t) : KeepsTiming s t := by
  unfold KeepsBesideTables at h
  constructor <;> rw [h]

theorem keepsDevice_handSwap (n : Nat) (e : TableEntry) (image : List Byte) (c : Chan) (s : State) :
    KeepsDevice s (handSwap n e image c s) := by
  unfold handSwap
  split
  · exact keepsDevice_swapTracker _ c s
  · exact keepsDevice_modCh c _ s
  · exact keepsDevice_modCh c _ s

theorem keepsBesideTables_loaderWork (n : Nat) (s : State) : KeepsBesideTables s (loaderWork n s) := by
  unfold loaderWork
  split
  · rfl
  · refine KeepsBesideTables.trans (t := loaderAdvance n s) ?_ rfl
    unfold loaderAdvance
    split
    · rfl
    · split
      · exact KeepsBesideTables.trans (t := { s with loader := .idle, shadow := [] }) rfl (keepsDevice_raise ..).besideTables
      · rfl
    · split
      · next e _ _ _ _ =>
        exact KeepsBesideTables.trans (t := { s with tables := setTableImage s.tables e s.shadow }) rfl
          ((keepsDevice_eachChan (keepsDevice_handSwap n e s.shadow) _).besideTables.trans rfl)
      · rfl

/-- A piece of work of an output frame start (R120). -/
theorem keepsTiming_doWork {news : State → State} (hnews : ∀ s, KeepsDevice s (news s)) (n : Nat) (s : State) (w : StartWork) :
    KeepsTiming s (doWork news n s w) := by
  cases w with
  | announce => exact (hnews s).timing
  | loader => exact (keepsBesideTables_loaderWork n s).timing
  | control c => exact (keepsDevice_controlWork c n s).timing
  | loss c => exact (keepsDevice_lossWork c s).timing
  | report c => exact (keepsDevice_reportWork c s).timing
  | packet c => exact (takeNext_keeps c n s).1

/-- An output frame start is counted, and reaches neither the address nor the Reference Timing Unit that issued it (R120). -/
theorem keepsTiming_issueStart {news : State → State} (hnews : ∀ s, KeepsDevice s (news s)) (order : List StartWork)
    (s : State) : KeepsTiming { s with startNo := s.startNo + 1 } (issueStart news order s) := by
  have hwork : KeepsTiming { s with startNo := s.startNo + 1 } ((claimWork order allWork).foldl (doWork news (s.startNo + 1))
      { s with startNo := s.startNo + 1, startSeen := true }) :=
    List.foldlRecOn (motive := KeepsTiming _) _ _ ⟨rfl, rfl, rfl, rfl, rfl⟩
      fun u hu w _ => hu.trans (keepsTiming_doWork hnews _ u w)
  exact hwork.trans ⟨rfl, rfl, rfl, rfl, rfl⟩

end Sys2Proof.Machine
end

section
/-! SUPPORT. What each command leaves of the device (R122, R141, R150, R157, R165), and with it the soundness of the Reference
Timing Unit (R114 to R119). -/

namespace Sys2Proof.Machine

open Sys2Proof

/-! ### Commands that reach none of the items -/

/-- `t` holds the address, the Reference Timing Unit, the number of output frame starts, the tables, the DRAM and its stored
errors of `s`. -/
structure KeepsItems (s t : State) : Prop where
  deviceAddress : t.deviceAddress = s.deviceAddress
  rtu           : t.rtu = s.rtu
  startNo       : t.startNo = s.startNo
  tables        : t.tables = s.tables
  dram          : t.dram = s.dram
  dramErrs      : t.dramErrs = s.dramErrs

theorem KeepsStore.items {s t : State} (h : KeepsStore s t) : KeepsItems s t :=
  ⟨h.timing.deviceAddress, h.timing.rtu, h.timing.startNo, h.tables, h.dram, h.dramErrs⟩

theorem KeepsDevice.items {s t : State} (h : KeepsDevice s t) : KeepsItems s t := h.store.items

/-- The idle count's advance that abandons the load (R152). -/
theorem loaderWork_abandons {owner : Chan} {e : TableEntry} {received idleCount n : Nat} {s : State}
    (hload : s.loader = .loading owner e received idleCount) (hidle : 100 ≤ idleCount + 1) (hdone : s.loaderDone = false) :
    loaderWork n s = { abandonLoad owner s with loaderDone := true } := by
  unfold loaderWork loaderAdvance
  rw [hdone, hload]
  dsimp only
  rw [if_neg Bool.false_ne_true, if_pos hidle]

/-- A load abandoned, or not, leaves the tables (R152). -/
theorem execLoadAbandoned_keepsItems {s t : State} (h : execLoadAbandoned s = .next t) : KeepsItems s t := by
  unfold execLoadAbandoned at h
  split at h
  · next owner e received idleCount hload =>
    split at h <;> cases h
    · next hidle =>
      rw [loaderWork_abandons hload hidle.1 hidle.2]
      obtain ⟨haddress, hrtu, hstart, htables, hdram, herrs⟩ := (keepsDevice_raise owner .loadAbandoned
        (s.ch owner).fieldCount { s with loader := .idle, shadow := [] }).items
      exact ⟨haddress, hrtu, hstart, htables, hdram, herrs⟩
    · exact ⟨rfl, rfl, rfl, rfl, rfl, rfl⟩
  · cases h; exact ⟨rfl, rfl, rfl, rfl, rfl, rfl⟩

theorem execTimingWord_keepsItems {c : Chan} {dt : Nat} {w : TimingWord} {line : LineIn} {s t : State}
    (h : execTimingWord c dt w line s = .next t) : KeepsItems s t := by
  cases h
  obtain ⟨haddress, hrtu, hstart, htables, hdram, herrs⟩ :=
    (keepsDevice_lineStart c w line (({ s with now := s.now + dt }).modCh c (clearLossCount w))).items
  exact ⟨haddress, hrtu, hstart, htables, hdram, herrs⟩

theorem execControlPacket_keepsItems {c : Chan} {s t : State} (h : execControlPacket c s = .next t) : KeepsItems s t := by
  unfold execControlPacket at h
  split at h <;> cases h
  · exact ⟨rfl, rfl, rfl, rfl, rfl, rfl⟩
  · exact ((keepsDevice_modCh c _ s).trans (keepsDevice_checkLineOf c _ _)).items

theorem execInputLoss_keepsItems {c : Chan} {s t : State} (h : execInputLoss c s = .next t) : KeepsItems s t := by
  unfold execInputLoss at h
  split at h <;> cases h
  · exact (keepsDevice_lossWork c s).items
  · exact ⟨rfl, rfl, rfl, rfl, rfl, rfl⟩

theorem execHaltComplete_keepsItems {c : Chan} {s t : State} (h : execHaltComplete c s = .next t) : KeepsItems s t := by
  unfold execHaltComplete at h
  split at h
  · split at h <;> cases h
    · exact (((keepsDevice_modCh c _ s).trans (keepsDevice_completeHalt c _ _)).trans (keepsDevice_modCh c _ _)).items
    · exact ⟨rfl, rfl, rfl, rfl, rfl, rfl⟩
  · cases h; exact ⟨rfl, rfl, rfl, rfl, rfl, rfl⟩

/-! ### Commands that reach one of them -/

/-- A swap reaches tables, and neither the timing nor the DRAM (R150). -/
theorem execTableSwap_keeps {s t : State} (h : execTableSwap s = .next t) : KeepsBesideTables s t := by
  unfold execTableSwap at h
  split at h
  · split at h <;> cases h
    · exact keepsBesideTables_loaderWork _ s
    · rfl
  · cases h; rfl

/-- A write burst that completes reaches the DRAM and its stored errors (R52). -/
theorem execWriteBurstComplete_keeps {s t : State} (h : execWriteBurstComplete s = .next t) :
    KeepsTiming s t ∧ t.tables = s.tables := by
  unfold execWriteBurstComplete at h
  split at h <;> cases h
  · next c slot k words _ =>
    have hended := keepsDevice_burstEnded (writeLine c slot k words s)
    obtain ⟨haddress, hrtu, hnow, hstart, hpending⟩ := hended.timing
    exact ⟨⟨haddress, hrtu, hnow, hstart, hpending⟩, hended.tables⟩
  · exact ⟨.refl s, rfl⟩

/-- A read burst that completes reaches the stored errors alone (R52, R54). -/
theorem execReadBurstComplete_keeps {line : LineRead} {s t : State} (h : execReadBurstComplete line s = .next t) :
    KeepsTiming s t ∧ t.tables = s.tables ∧ t.dram = s.dram := by
  unfold execReadBurstComplete at h
  split at h <;> cases h
  · next c slot k _ num live present _ =>
    have hread := (keepsStore_readDelivered c slot k num live present line.strikes line.read s).trans
      (keepsDevice_pumpEngine c _).store
    obtain ⟨haddress, hrtu, hnow, hstart, hpending⟩ := hread.timing
    exact ⟨⟨haddress, hrtu, hnow, hstart, hpending⟩, hread.tables, hread.dram⟩
  · exact ⟨.refl s, rfl, rfl⟩

/-! ### The commands that issue an output frame start -/

/-- The reference pulse and its timers as R115 to R117 have them: the Reference Timing Unit's items change first, then the
output frame start is issued; or no timer is running, and nothing happens. -/
inductive IssuesStart (s t : State) : Prop
  | pulse (dt : Nat) (f : Family) (order : List StartWork) (h : t = issueStart (pulseNews s.rtu f) order
      { s with now := s.now + dt, rtu := pulseRtu f (s.now + dt) })
  | timeout (order : List StartWork) (h : t = issueStart (raiseAll .refLost) order (expire s))
  | expiry (order : List StartWork) (h : t = issueStart id order (expire s))
  | idle (h : t = s)

theorem issuesStart_execRefLossTimeout {order : List StartWork} {s t : State} (h : execRefLossTimeout order s = .next t) :
    IssuesStart s t := by
  unfold execRefLossTimeout at h
  split at h <;> cases h
  · exact .idle rfl
  · exact .timeout order rfl

theorem issuesStart_execFreeRunExpiry {order : List StartWork} {s t : State} (h : execFreeRunExpiry order s = .next t) :
    IssuesStart s t := by
  unfold execFreeRunExpiry at h
  split at h <;> cases h
  · exact .expiry order rfl
  · exact .idle rfl

/-- An output frame start leaves the address, and of the Reference Timing Unit what its command set (R115 to R117, R120). -/
theorem IssuesStart.keeps {s t : State} (h : IssuesStart s t) : t.deviceAddress = s.deviceAddress ∧
    (t.rtu = s.rtu ∨ (∃ f n, t.rtu = pulseRtu f n) ∨ ∃ f n, t.rtu = freeRunRtu f n) := by
  cases h with
  | pulse dt f order h =>
    have hkeeps := keepsTiming_issueStart (keepsDevice_pulseNews s.rtu f) order
      { s with now := s.now + dt, rtu := pulseRtu f (s.now + dt) }
    exact h ▸ ⟨hkeeps.deviceAddress, .inr (.inl ⟨_, _, hkeeps.rtu⟩)⟩
  | timeout order h =>
    have hkeeps := keepsTiming_issueStart (keepsDevice_raiseAll .refLost) order (expire s)
    exact h ▸ ⟨hkeeps.deviceAddress, .inr (.inr ⟨_, _, hkeeps.rtu⟩)⟩
  | expiry order h =>
    have hkeeps := keepsTiming_issueStart (news := id) KeepsDevice.refl order (expire s)
    exact h ▸ ⟨hkeeps.deviceAddress, .inr (.inr ⟨_, _, hkeeps.rtu⟩)⟩
  | idle h => exact h ▸ ⟨rfl, .inl rfl⟩

/-! ### The obligations -/

/-- What command `i` reaches, when it is no reset by power or pin. -/
inductive Reaches (i : Instr) (s t : State) : Prop
  | none (h : KeepsItems s t)
  | memory (hi : (∃ c, i = .restartDevice c) ∨ i = .writeBurstComplete) (htiming : KeepsTiming s t)
      (htables : t.tables = s.tables)
  | errors (line : LineRead) (hi : i = .readBurstComplete line) (htiming : KeepsTiming s t) (htables : t.tables = s.tables)
      (hdram : t.dram = s.dram)
  | tables (hi : i = .tableSwap) (hbeside : KeepsBesideTables s t)
  | timing (hi : (∃ dt f order, i = .referencePulse dt f order) ∨ (∃ order, i = .refLossTimeout order) ∨
      ∃ order, i = .freeRunExpiry order) (h : IssuesStart s t)

theorem exec_reaches {i : Instr} {s t : State} (h : exec i s = .next t) (hpower : ∀ a b c, i ≠ .powerOnReset a b c)
    (hpin : ∀ a, i ≠ .pinReset a) : Reaches i s t := by
  have htaken : ∀ {c : Chan} {k : Option DirKind}, k ≠ some .restartDevice →
      (.next (takeKind c k s) : Host.Outcome State Fault Refusal) = .next t → KeepsItems s t := fun hk h => by
    cases h; exact (keepsStore_takeKind hk _ s).items
  cases i with
  | powerOnReset a b c => exact absurd rfl (hpower a b c)
  | pinReset a => exact absurd rfl (hpin a)
  | restartDevice c =>
    cases h
    obtain ⟨htiming, htables⟩ := takeKind_keeps c (some .restartDevice) s
    exact .memory (.inl ⟨c, rfl⟩) htiming htables
  | timingWord c dt w line => exact .none (execTimingWord_keepsItems h)
  | controlPacket c => exact .none (execControlPacket_keepsItems h)
  | writeBurstComplete =>
    obtain ⟨htiming, htables⟩ := execWriteBurstComplete_keeps h
    exact .memory (.inr rfl) htiming htables
  | readBurstComplete line =>
    obtain ⟨htiming, htables, hdram⟩ := execReadBurstComplete_keeps h
    exact .errors line rfl htiming htables hdram
  | referencePulse dt f order => cases h; exact .timing (.inl ⟨dt, f, order, rfl⟩) (.pulse dt f order rfl)
  | refLossTimeout order => exact .timing (.inr (.inl ⟨order, rfl⟩)) (issuesStart_execRefLossTimeout h)
  | freeRunExpiry order => exact .timing (.inr (.inr ⟨order, rfl⟩)) (issuesStart_execFreeRunExpiry h)
  | inputLoss c => exact .none (execInputLoss_keepsItems h)
  | loadAbandoned => exact .none (execLoadAbandoned_keepsItems h)
  | tableSwap => exact .tables rfl (execTableSwap_keeps h)
  | haltComplete c => exact .none (execHaltComplete_keepsItems h)
  | outputLinePeriod c => exact .none (keepsDevice_execOutputLinePeriod h).items
  | probe c | setFormat c | setParameters c | start c | halt c | resetChannel c | readStats c | loadBegin c
  | loadSegment c | loadCommit c | loadAbort c | readTable c | deviceStatus c | clearErrors c | setDeviceOptions c
  | armProbe c | readProbe c | unknownKind c => exact .none (htaken (by decide) h)

/-- Settles O60: most commands reach none of the items; the few that do reach the ones that their rules name. -/
theorem onlyTheseCommandsChange : Obligations.OnlyTheseCommandsChange := by
  intro i s t h hpower hpin
  cases exec_reaches h hpower hpin with
  | none h =>
    exact ⟨h.deviceAddress, fun _ _ _ => ⟨h.rtu, h.startNo, fun _ => h.tables, fun _ _ => h.dram, fun _ _ _ => h.dramErrs⟩⟩
  | memory hi htiming htables =>
    have hnot : i ≠ .writeBurstComplete → (∀ c, i ≠ .restartDevice c) → False := fun hwrite hrestart =>
      hi.elim (fun ⟨c, hc⟩ => hrestart c hc) hwrite
    exact ⟨htiming.deviceAddress, fun _ _ _ => ⟨htiming.rtu, htiming.startNo, fun _ => htables,
      fun hwrite hrestart => (hnot hwrite hrestart).elim, fun _ hwrite hrestart => (hnot hwrite hrestart).elim⟩⟩
  | errors line hi htiming htables hdram =>
    exact ⟨htiming.deviceAddress, fun _ _ _ => ⟨htiming.rtu, htiming.startNo, fun _ => htables, fun _ _ => hdram,
      fun hread => absurd hi (hread line)⟩⟩
  | tables hi hbeside =>
    exact ⟨hbeside.timing.deviceAddress, fun _ _ _ => ⟨hbeside.timing.rtu, hbeside.timing.startNo,
      fun hswap => absurd hi hswap, fun _ _ => by rw [hbeside], fun _ _ _ => by rw [hbeside]⟩⟩
  | timing hi hissues =>
    refine ⟨hissues.keeps.1, fun hpulse htimeout hexpiry => ?_⟩
    rcases hi with ⟨dt, f, order, hi⟩ | ⟨order, hi⟩ | ⟨order, hi⟩
    · exact absurd hi (hpulse dt f order)
    · exact absurd hi (htimeout order)
    · exact absurd hi (hexpiry order)

theorem rtuSound_of_rtu {s t : State} (h : t.rtu = s.rtu) (hs : RtuSound s) : RtuSound t := by
  unfold RtuSound at hs ⊢
  rw [h]
  exact hs

/-- After a pulse the state is the LOCKED one of the pulse's family, and the loss timeout runs from the pulse (R115, R118). -/
theorem rtuSound_of_pulse {t : State} {f : Family} {n : Nat} (h : t.rtu = pulseRtu f n) : RtuSound t := by
  unfold RtuSound
  rw [h]
  cases f <;> exact ⟨rfl, rfl, n, rfl, rfl⟩

/-- After an expiry the state is FREE_RUN, and the next period runs from it (R116, R117). -/
theorem rtuSound_of_freeRun {t : State} {f : Family} {n : Nat} (h : t.rtu = freeRunRtu f n) : RtuSound t := by
  unfold RtuSound
  rw [h]
  refine ⟨rfl, fun m hm => ?_⟩
  obtain rfl := Option.some.inj hm
  rfl

/-- Every command keeps the Reference Timing Unit sound: it resets it, locks it, lets it run free, or leaves it. -/
theorem exec_rtuSound {i : Instr} {s t : State} (hs : RtuSound s) (h : exec i s = .next t) : RtuSound t := by
  have hreset : RtuSound State.reset := resetMeetsInvariants.2.2.2.2.2.1
  have hissued : IssuesStart s t → RtuSound t := fun hi => by
    rcases hi.keeps.2 with hrtu | ⟨f, n, hrtu⟩ | ⟨f, n, hrtu⟩
    · exact rtuSound_of_rtu hrtu hs
    · exact rtuSound_of_pulse hrtu
    · exact rtuSound_of_freeRun hrtu
  have hothers : (∀ a b c, i ≠ .powerOnReset a b c) → (∀ a, i ≠ .pinReset a) → (∀ a b c, i ≠ .referencePulse a b c) →
      (∀ a, i ≠ .refLossTimeout a) → (∀ a, i ≠ .freeRunExpiry a) → RtuSound t := fun hpower hpin hpulse htimeout hexpiry =>
    rtuSound_of_rtu ((onlyTheseCommandsChange i s t h hpower hpin).2 hpulse htimeout hexpiry).1 hs
  cases i with
  | powerOnReset straps found errs => cases h; exact rtuSound_of_rtu rfl hreset
  | pinReset straps => cases h; exact rtuSound_of_rtu rfl hreset
  | referencePulse dt f order => cases h; exact hissued (.pulse dt f order rfl)
  | refLossTimeout order => exact hissued (issuesStart_execRefLossTimeout h)
  | freeRunExpiry order => exact hissued (issuesStart_execFreeRunExpiry h)
  | _ => exact hothers (by simp) (by simp) (by simp) (by simp) (by simp)

/-- Settles O57: a step is the front command, and every command keeps the Reference Timing Unit sound. -/
theorem rtuStaysSound : Obligations.RtuStaysSound := by
  intro s t hs h
  unfold step at h
  split at h
  · cases h; exact hs
  · next i rest _ => exact exec_rtuSound (s := { s with pending := rest }) hs h

end Sys2Proof.Machine
end

section
/-! SUPPORT. The filter (R109): its formula, its legal results, and equal samples under coefficients that sum to 512. -/

namespace Sys2Proof.Machine

open Sys2Proof

/-- The clamp of a filter result, by its formula (R109). -/
theorem clampSigned_eq {hi : Nat} (h : 64 ≤ hi) (v : Int) : (clampSigned hi v : Int) = max 64 (min (hi : Int) v) := by
  unfold clampSigned
  rw [clampNat_eq h]
  omega

/-- The products of equal samples under coefficients that sum to 512 are 512 times the sample, and the division gives it
back: the 256 added is less than a whole (R109). -/
theorem filterValue_equal {c0 c1 c2 c3 : Int} (h : c0 + c1 + c2 + c3 = 512) (v : Nat) :
    filterValue c0 c1 c2 c3 v v v v = v := by
  have hsum : c0 * v + c1 * v + c2 * v + c3 * v = 512 * (v : Int) := by
    rw [← h]
    ring
  unfold filterValue
  rw [hsum]
  omega

/-- A legal value passes the clamp. -/
theorem clampSigned_of_legal {hi v : Nat} (hlo : 64 ≤ v) (hhi : v ≤ hi) : clampSigned hi (v : Int) = v := by
  have h := clampSigned_eq (hlo.trans hhi) (v : Int)
  omega

theorem clampSigned_legal {hi : Nat} (h : 64 ≤ hi) (v : Int) : 64 ≤ clampSigned hi v ∧ clampSigned hi v ≤ hi := by
  have hclamp := clampSigned_eq h v
  omega

/-- Settles O52: the filter is its formula clamped, and the clamp leaves a legal value as it is. -/
theorem equalSamplesPassTheFilter : Obligations.EqualSamplesPassTheFilter := by
  refine ⟨fun c0 c1 c2 c3 v s0 s1 s2 s3 hv => ?_, fun c0 c1 c2 c3 v hsum => ⟨fun hlo hhi => ?_, fun hlo hhi => ?_⟩,
    fun c0 c1 c2 c3 s0 s1 s2 s3 => ?_⟩
  · subst hv
    exact ⟨clampSigned_eq (by decide) _, clampSigned_eq (by decide) _⟩
  · exact (congrArg (clampSigned 940) (filterValue_equal hsum v)).trans (clampSigned_of_legal hlo hhi)
  · exact (congrArg (clampSigned 960) (filterValue_equal hsum v)).trans (clampSigned_of_legal hlo hhi)
  · obtain ⟨hlo, hhi⟩ := clampSigned_legal (hi := 940) (by decide) (filterValue c0 c1 c2 c3 s0 s1 s2 s3)
    obtain ⟨hlo', hhi'⟩ := clampSigned_legal (hi := 960) (by decide) (filterValue c0 c1 c2 c3 s0 s1 s2 s3)
    exact ⟨hlo, hhi, hlo', hhi'⟩

end Sys2Proof.Machine
end

section
/-! SUPPORT. Output line periods outside pictures (R6, R104, R155, R167, R168): report window lines, blanking and black lines, in a
frame and in the rest of one that a device reset ended (R89, R122). -/

namespace Sys2Proof.Machine

open Sys2Proof

/-! ### Report window lines (R155, R160, R167, R168) -/

/-- The words sent are the report's packet with the device's address. -/
theorem sendsReport_sendReport (device : BitVec 4) (ch : Channel) : SendsReport device ch (sendReport device ch) := by
  unfold SendsReport
  cases hw : ch.rep.window with
  | nil =>
    have hblank : sendReport device ch = { ch with out := some .blanking } := by unfold sendReport; rw [hw]
    rw [hblank]
    exact ⟨fun _ => ⟨rfl, hw⟩, fun r more h => by cases h⟩
  | cons r rest =>
    have hsent : sendReport device ch =
        { ch with out := some (.report (reportWords device r)), rep := { ch.rep with window := rest } } := by
      unfold sendReport; rw [hw]
    rw [hsent]
    refine ⟨fun h => (List.cons_ne_nil r rest h).elim, fun q more h => ?_⟩
    obtain ⟨rfl, rfl⟩ := List.cons.inj h
    exact ⟨rfl, reportBytes device r, rfl, fun b hb => by rw [hb]; rfl,
      fun tag kind code reason data ha => by rw [ha]; rfl, fun kinds field count he => by rw [he]; rfl⟩

/-- A report window line reaches the output and the window list alone. -/
theorem sendReport_eq (device : BitVec 4) (ch : Channel) : sendReport device ch =
    { ch with out := (sendReport device ch).out, rep := { ch.rep with window := (sendReport device ch).rep.window } } := by
  unfold sendReport
  split <;> rfl

/-- What is sent is read off the output and the window list. -/
theorem sendsReport_congr {device : BitVec 4} {old new new' : Channel} (h : SendsReport device old new)
    (hout : new'.out = new.out) (hwindow : new'.rep.window = new.rep.window) : SendsReport device old new' := by
  unfold SendsReport at h ⊢
  rw [hout, hwindow]
  exact h

theorem exists_out_sendReport (device : BitVec 4) (ch : Channel) : ∃ out, (sendReport device ch).out = some out := by
  unfold sendReport
  split <;> exact ⟨_, rfl⟩

/-! ### The place of a line period (R104) -/

section

variable {r : Raster} {p : Nat}

theorem inReportWindow_iff : inReportWindow r p = true ↔ firstPeriod r - 4 ≤ p ∧ p < firstPeriod r := by
  unfold inReportWindow
  simp

theorem outputLineOf_active (hlo : firstPeriod r ≤ p) (hhi : p < firstPeriod r + rasterHeight r) :
    inReportWindow r p = false ∧ outputLineOf r p = some (p - firstPeriod r) :=
  ⟨Bool.eq_false_iff.2 fun h => by have := inReportWindow_iff.1 h; omega, if_pos ⟨hlo, hhi⟩⟩

theorem outputLineOf_blanking (h : p < firstPeriod r - 4 ∨ firstPeriod r + rasterHeight r ≤ p) :
    inReportWindow r p = false ∧ outputLineOf r p = none :=
  ⟨Bool.eq_false_iff.2 fun hw => by have := inReportWindow_iff.1 hw; omega, if_neg (by omega)⟩

/-- The line periods of a frame: report window, active lines, blanking. -/
theorem period_cases (r : Raster) (p : Nat) : (firstPeriod r - 4 ≤ p ∧ p < firstPeriod r) ∨
    (firstPeriod r ≤ p ∧ p < firstPeriod r + rasterHeight r) ∨
    (p < firstPeriod r - 4 ∨ firstPeriod r + rasterHeight r ≤ p) := by omega

end

/-! ### A line period of a frame (R6, R104, R105) -/

section

variable (device : BitVec 4) (x : ScalerFrame) (ch : Channel)

theorem linePeriod_report (hlo : firstPeriod x.raster - 4 ≤ x.period) (hhi : x.period < firstPeriod x.raster) :
    linePeriod device x ch = reportPeriod device x ch := if_pos (inReportWindow_iff.2 ⟨hlo, hhi⟩)

theorem linePeriod_blanking (h : x.period < firstPeriod x.raster - 4 ∨ firstPeriod x.raster + rasterHeight x.raster ≤ x.period) :
    linePeriod device x ch = emit .blanking x ch := by
  obtain ⟨hreport, hline⟩ := outputLineOf_blanking h
  unfold linePeriod
  rw [hreport, hline]
  rfl

/-- An active line moves the frame context's place, next output line and previous line, and of the channel the output, the
engine and the count of underruns (R53, R105, R111). -/
theorem activePeriod_moves (y : Nat) : ∃ window, activePeriod x y ch = { ch with
    out := (activePeriod x y ch).out
    scaler := some { x with nextLine := y + 1, prevLine := window, period := x.period + 1 }
    engine := (activePeriod x y ch).engine
    stats := (activePeriod x y ch).stats } := by
  unfold activePeriod
  split
  · exact ⟨_, rfl⟩
  · split <;> exact ⟨_, rfl⟩

/-- A line period moves of the frame context its place, its next output line and its previous line, and leaves the ended
frame, the controller and every report but those of the window list (R104). -/
theorem linePeriod_moves : ∃ next previous, linePeriod device x ch = { ch with
    out := (linePeriod device x ch).out
    scaler := some { x with nextLine := next, prevLine := previous, period := x.period + 1 }
    engine := (linePeriod device x ch).engine
    rep := { ch.rep with window := (linePeriod device x ch).rep.window }
    stats := (linePeriod device x ch).stats } := by
  rcases period_cases x.raster x.period with ⟨hlo, hhi⟩ | ⟨hlo, hhi⟩ | h
  · rw [linePeriod_report device x ch hlo hhi]
    unfold reportPeriod
    rw [sendReport_eq]
    exact ⟨x.nextLine, x.prevLine, rfl⟩
  · obtain ⟨y, hy⟩ := Nat.exists_eq_add_of_le hlo
    rw [linePeriod_active device ch hy (by omega)]
    obtain ⟨window, h⟩ := activePeriod_moves x ch y
    rw [h]
    exact ⟨_, _, rfl⟩
  · rw [linePeriod_blanking device x ch h]
    exact ⟨x.nextLine, x.prevLine, rfl⟩

end

/-- A row of one colour. -/
theorem colourRow_toList (n : Nat) (x : Colour) : (colourRow n x).y.toList = List.replicate n x.y ∧
    (colourRow n x).cb.toList = List.replicate (n / 2) x.cb ∧ (colourRow n x).cr.toList = List.replicate (n / 2) x.cr := by
  simp [colourRow, tabulate]

/-! ### The engine's run behind a line period (R111) -/

theorem raise_window (c : Chan) (k : EventKind) (n : Nat) (s : State) :
    ((raise c k n s).ch c).rep.window = (s.ch c).rep.window := by
  unfold raise
  split <;> simp [pushReport]

/-- A probe hit joins the queue or the held status, and no window list (R168, R175). -/
theorem probeRow_window (c : Chan) (f : Frame) (r : Nat) (b : Built) (s : State) :
    ((probeRow c f r b s).ch c).rep.window = (s.ch c).rep.window := by
  unfold probeRow
  split
  · dsimp only
    split
    · exact raise_window ..
    · rfl
  · rfl
  · rfl

theorem pumpEngine_window (c : Chan) (s : State) : ((pumpEngine c s).ch c).rep.window = (s.ch c).rep.window := by
  refine pumpEngine_keeps (P := fun t => (t.ch c).rep.window = (s.ch c).rep.window) (fun t u ht hu => ?_)
    (fun t u ht hu => ?_) (fun t ht => ?_) rfl
  · obtain ⟨f, sc, r, b, -, -, -, -, -, -, -, -, rfl⟩ := buildNext_cases hu
    rw [probeRow_window, State.ch_modCh_same]
    exact ht
  · rw [(begunMoves_turnNext hu).eq]
    exact ht
  · rw [(begunMoves_arbitrate t c).eq]
    exact ht

/-! ### The rest of an output frame that a device reset ended (R89, R122) -/

/-- A line period of the rest of a frame: black inside the window and the fill outside on its active lines, and else as in
any frame. -/
theorem endedPeriod_spec (device : BitVec 4) (x : EndedFrame) (ch : Channel) : ∃ out window,
    endedPeriod device x ch = { ch with
      ended := some { x with period := x.period + 1 }, out := some out, rep := { ch.rep with window := window } } ∧
    (firstPeriod x.raster - 4 ≤ x.period → x.period < firstPeriod x.raster →
      SendsReport device ch { ch with out := some out, rep := { ch.rep with window := window } }) ∧
    (¬ (firstPeriod x.raster - 4 ≤ x.period ∧ x.period < firstPeriod x.raster) → window = ch.rep.window) ∧
    ((x.period < firstPeriod x.raster - 4 ∨ firstPeriod x.raster + rasterHeight x.raster ≤ x.period) → out = .blanking) ∧
    (firstPeriod x.raster ≤ x.period → x.period < firstPeriod x.raster + rasterHeight x.raster →
      out = .active (windowLine x.raster x.aspect x.fill (blackSamples x.raster x.aspect))) := by
  unfold endedPeriod
  rcases period_cases x.raster x.period with hwindow | ⟨hlo, hhi⟩ | h
  · obtain ⟨out, hout⟩ := exists_out_sendReport device ch
    rw [inReportWindow_iff.2 hwindow, sendReport_eq, hout]
    refine ⟨out, _, rfl, fun _ _ => sendsReport_congr (sendsReport_sendReport device ch) hout.symm rfl, fun h => absurd hwindow h,
      fun h => ?_, fun h => ?_⟩ <;> omega
  · obtain ⟨hreport, hline⟩ := outputLineOf_active hlo hhi
    rw [hreport, hline]
    refine ⟨_, _, rfl, fun _ h => ?_, fun _ => rfl, fun h => ?_, fun _ _ => rfl⟩ <;> omega
  · obtain ⟨hreport, hline⟩ := outputLineOf_blanking h
    rw [hreport, hline]
    refine ⟨_, _, rfl, fun _ _ => ?_, fun _ => rfl, fun _ => rfl, fun _ _ => ?_⟩ <;> omega

theorem exec_outputLinePeriod_ended {c : Chan} {s : State} {x : EndedFrame} (hscaler : (s.ch c).scaler = none)
    (hended : (s.ch c).ended = some x) :
    exec (.outputLinePeriod c) s = .next (s.modCh c (endedPeriod s.deviceAddress x)) := by
  show execOutputLinePeriod c s = _
  unfold execOutputLinePeriod
  rw [hscaler, hended]

theorem exec_outputLinePeriod_none {c : Chan} {s : State} (hscaler : (s.ch c).scaler = none)
    (hended : (s.ch c).ended = none) : exec (.outputLinePeriod c) s = .next s := by
  show execOutputLinePeriod c s = _
  unfold execOutputLinePeriod
  rw [hscaler, hended]

/-- Settles O47: no frame, the rest of an ended one, and a frame in progress, line period by line period. -/
theorem linePeriodEmitted : Obligations.LinePeriodEmitted := by
  intro c s
  refine ⟨exec_outputLinePeriod_none, fun x first height total left width hscaler hended hraster hwindow => ?_,
    fun x first height width hx hraster => ?_⟩
  · have hsizes : (first, height, total) = (firstPeriod x.raster, rasterHeight x.raster, rasterWidth x.raster) := by
      rw [hraster]
      cases x.raster <;> rfl
    simp only [Prod.mk.injEq] at hsizes
    obtain ⟨rfl, rfl, rfl⟩ := hsizes
    obtain ⟨out, window, heq, hsends, hkept, hblank, hactive⟩ := endedPeriod_spec s.deviceAddress x (s.ch c)
    refine ⟨out, window, ?_, hsends, hkept, hblank, fun hlo hhi => ⟨_, hactive hlo hhi, ?_⟩⟩
    · rw [exec_outputLinePeriod_ended hscaler hended, State.modCh_eq, heq]
    · obtain ⟨rfl, rfl⟩ : left = (activeWindow x.aspect x.raster).1 ∧ width = (activeWindow x.aspect x.raster).2 := by
        rw [← hwindow]; exact ⟨rfl, rfl⟩
      exact windowLine_around x.raster x.aspect x.fill (blackSamples x.raster x.aspect)
  · have hsizes : (first, height, width) = (firstPeriod x.raster, rasterHeight x.raster, rasterWidth x.raster) := by
      rw [hraster]
      cases x.raster <;> rfl
    simp only [Prod.mk.injEq] at hsizes
    obtain ⟨rfl, rfl, rfl⟩ := hsizes
    obtain ⟨u, hu⟩ : ∃ u, u = s.modCh c (linePeriod s.deviceAddress x) := ⟨_, rfl⟩
    have hline : u.ch c = linePeriod s.deviceAddress x (s.ch c) := by rw [hu, State.ch_modCh_same]
    obtain ⟨next, previous, hmoves⟩ := linePeriod_moves s.deviceAddress x (s.ch c)
    rw [← hline] at hmoves
    have hpump := pumpKeeps_pumpEngine c u
    have hdevice := (hu ▸ keepsDevice_modCh c (linePeriod s.deviceAddress x) s : KeepsDevice s u).trans (keepsDevice_pumpEngine c u)
    obtain ⟨t, ht⟩ : ∃ t, t = pumpEngine c u := ⟨_, rfl⟩
    have hwindow : (t.ch c).rep.window = (u.ch c).rep.window := by rw [ht]; exact pumpEngine_window c u
    rw [← ht] at hpump hdevice
    have hown := (hpump.moves c).eq
    have hout : (t.ch c).out = (u.ch c).out := by rw [hown]
    have hscaler : (t.ch c).scaler = (u.ch c).scaler := by rw [hown]
    refine ⟨t, _, ?_, hscaler.trans (congrArg Channel.scaler hmoves), rfl, rfl, rfl, ?_, fun hlo hhi => ?_, fun h => ?_,
      fun hlo hhi hkind => ?_, hdevice.dram, hdevice.dramErrs, hdevice.tables, hdevice.loader, hdevice.rtu, hdevice.capture,
      hdevice.now, hdevice.pending, ?_, fun e he => ?_⟩
    · rw [exec_outputLinePeriod hx, ht, hu]
    · rw [hown, hmoves]
    · have hreport : u.ch c = reportPeriod s.deviceAddress x (s.ch c) := by rw [hline]; exact linePeriod_report _ _ _ hlo hhi
      refine sendsReport_congr (sendsReport_sendReport s.deviceAddress (s.ch c)) (hout.trans ?_) (hwindow.trans ?_) <;>
        (rw [hreport]; rfl)
    · have hblank : u.ch c = emit .blanking x (s.ch c) := by rw [hline]; exact linePeriod_blanking _ _ _ h
      rw [hout, hwindow, hblank]
      exact ⟨rfl, rfl⟩
    · obtain ⟨y, hy⟩ := Nat.exists_eq_add_of_le hlo
      have hblack : u.ch c = emitActive y (blackWindow x) (blackLine x.raster) x (s.ch c) := by
        rw [hline, linePeriod_active _ _ hy (by omega)]
        unfold activePeriod
        rw [hkind]
      have hsame := (congrArg Channel.scaler hmoves).symm.trans (congrArg Channel.scaler hblack)
      simp only [emitActive, emit, Option.some.injEq, ScalerFrame.mk.injEq] at hsame
      obtain ⟨hluma, hcb, hcr⟩ := colourRow_toList (rasterWidth x.raster) blackColour
      refine ⟨blackLine x.raster, hout.trans (congrArg Channel.out hblack), hluma, hcb, hcr, ?_, ?_⟩
      · simp only [hsame]
        omega
      · simp only [hsame]
        rfl
    · rw [hown, hmoves]
    · have hne : u.ch e = s.ch e := by rw [hu]; exact State.ch_modCh_ne s he _
      have hmoved := (hpump.moves e).eq
      have hrep := hpump.rep e (.inl he)
      rw [hne] at hmoved hrep
      refine ⟨?_, ?_, hrep, ?_, ?_⟩ <;> rw [hmoved]

end Sys2Proof.Machine
end

section
/-! SUPPORT. What the work of an output frame start reads and leaves of each channel (R10, R84, R105, R120, R159): the frame in
progress, the formats, and the directives waiting. -/

namespace Sys2Proof.Machine

open Sys2Proof

/-! ### The part of a channel that an output frame start's frame depends on -/

/-- What the frame of an output frame start takes from the channel's settings, and the directives waiting (R10, R159). -/
structure StartSettings where
  format   : Format
  prior    : Option (Format × Nat)
  dirQueue : List Directive

/-- Of an engine's frame: the output frame start that began it, and its blend curve (R84). -/
structure EngineView where
  begun   : Nat
  curveNo : Fin 4
  curve   : List Byte

/-- Of a channel: its frame with the rest of an ended one, and its settings. -/
structure StartView where
  scaler   : Option ScalerFrame
  ended    : Option EndedFrame
  engine   : Option EngineView
  settings : StartSettings

def startSettings (ch : Channel) : StartSettings := ⟨ch.ctl.format, ch.ctl.priorFormat, ch.pku.dirQueue⟩

def engineView (f : Frame) : EngineView := ⟨f.begun, f.curveNo, f.curve⟩

def startView (ch : Channel) : StartView := ⟨ch.scaler, ch.ended, ch.engine.map engineView, startSettings ch⟩

/-! ### Work that leaves every channel's view -/

/-- Every channel's view stands. -/
def ViewsStand (s t : State) : Prop := ∀ d, startView (t.ch d) = startView (s.ch d)

section

variable {s t u : State} {c : Chan}

theorem ViewsStand.refl (s : State) : ViewsStand s s := fun _ => rfl

theorem ViewsStand.trans (h : ViewsStand s t) (k : ViewsStand t u) : ViewsStand s u := fun d => (k d).trans (h d)

/-- A change beside the channels leaves their views. -/
theorem ViewsStand.device (h : ViewsStand s t) (hc : u.chans = t.chans) : ViewsStand s u := fun d => by
  rw [State.ch_congr hc]; exact h d

theorem viewsStand_of_chans (h : t.chans = s.chans) : ViewsStand s t := (ViewsStand.refl s).device h

theorem viewsStand_setCh {x : Channel} (h : startView x = startView (s.ch c)) : ViewsStand s (s.setCh c x) := fun d => by
  by_cases hd : d = c
  · subst hd; rw [State.ch_setCh_same]; exact h
  · rw [State.ch_setCh_ne _ hd]

theorem viewsStand_modCh {f : Channel → Channel} (h : startView (f (s.ch c)) = startView (s.ch c)) :
    ViewsStand s (s.modCh c f) := viewsStand_setCh h

theorem viewsStand_eachChan {f : Chan → State → State} (hf : ∀ c s, ViewsStand s (f c s)) (s : State) :
    ViewsStand s (eachChan f s) :=
  (((hf _ _).trans (hf _ _)).trans (hf _ _)).trans (hf _ _)

end

section

variable (c : Chan) (s : State)

theorem viewsStand_raise (k : EventKind) (n : Nat) : ViewsStand s (raise c k n s) := by
  rw [raise_eq_setCh]; exact viewsStand_setCh rfl

theorem viewsStand_raiseAll (k : EventKind) : ViewsStand s (raiseAll k s) :=
  viewsStand_eachChan (fun _ _ => viewsStand_raise _ _ _ _) s

theorem viewsStand_deliverHeld (places : Nat) : ViewsStand s (deliverHeld c places s) := by
  rw [deliverHeld_eq_setCh]; exact viewsStand_setCh rfl

theorem viewsStand_answer (tag kind : Byte) (code : AnswerCode) (r : Option Reason) (l : List Byte) :
    ViewsStand s (answer c tag kind code r l s) := viewsStand_modCh rfl

theorem viewsStand_reportWork : ViewsStand s (reportWork c s) :=
  ViewsStand.trans (t := s.modCh c insertReports) (viewsStand_modCh rfl) (viewsStand_deliverHeld c _ 0)

theorem viewsStand_familyChange (f : Family) : ViewsStand s (familyChange f c s) := by
  unfold familyChange
  split
  · exact viewsStand_raise c s _ _
  · exact .refl s

theorem viewsStand_pulseNews (x : Rtu) (f : Family) : ViewsStand s (pulseNews x f s) := by
  unfold pulseNews
  split
  · exact .refl s
  · split
    · exact viewsStand_raiseAll s _
    · exact (viewsStand_raiseAll s _).trans (viewsStand_eachChan (fun _ _ => viewsStand_familyChange _ _ _) _)

theorem viewsStand_removeFromRing (ring : List FieldRecord) : ViewsStand s (removeFromRing c ring s) := fun d => by
  rw [removeFromRing_ch]
  exact viewsStand_modCh (by rfl) d

theorem viewsStand_swapTracker (i : Fin 8) : ViewsStand s (swapTracker i c s) := by
  have htracked : ∀ k : Track, ViewsStand s (s.setCh c { s.ch c with cad := { (s.ch c).cad with track := k } }) :=
    fun _ => viewsStand_setCh rfl
  unfold swapTracker
  dsimp only
  split
  · exact ((htracked _).trans (viewsStand_modCh (by rfl))).trans (viewsStand_raise c _ _ _)
  · exact htracked _

theorem viewsStand_declareLoss : ViewsStand s (declareLoss c s) :=
  ((viewsStand_removeFromRing c s _).trans (viewsStand_modCh (by rfl))).trans (viewsStand_raise c _ _ _)

/-- The receiver's loss reaches neither the frame nor the settings (R26, R43). -/
theorem viewsStand_lossWork : ViewsStand s (lossWork c s) := by
  unfold lossWork
  split
  · exact .refl s
  · refine ViewsStand.trans (t := lossAdvance c s) ?_ (viewsStand_modCh rfl)
    unfold lossAdvance
    dsimp only
    split
    · exact .refl s
    · split
      · exact viewsStand_declareLoss c s
      · exact viewsStand_modCh rfl

/-! ### The engine's turns and the arbiter's grants -/

theorem BegunMoves.view {old new : Channel} (h : BegunMoves old new) : startView new = startView old := by
  have hengine : new.engine.map engineView = old.engine.map engineView := by
    have hrel := h.engine
    generalize old.engine = e at hrel ⊢
    generalize new.engine = g at hrel ⊢
    cases hrel with
    | none => rfl
    | some hreads => rw [hreads]; rfl
  unfold startView
  rw [hengine, h.eq]
  rfl

/-- The engine's run reaches another channel by grants alone. -/
theorem pumpEngine_view_ne {d : Chan} (h : d ≠ c) : startView ((pumpEngine c s).ch d) = startView (s.ch d) := by
  refine pumpEngine_keeps (P := fun t => startView (t.ch d) = startView (s.ch d)) (fun t u ht hu => ?_)
    (fun t u ht hu => ?_) (fun t ht => (begunMoves_arbitrate t d).view.trans ht) rfl
  · obtain ⟨f, sc, r, b, -, -, -, -, -, -, -, -, rfl⟩ := buildNext_cases hu
    rw [probeRow_ch.1 d h, State.ch_modCh_ne _ h]
    exact ht
  · obtain ⟨f, g, -, -, rfl⟩ := turnNext_cases hu
    rw [State.ch_modCh_ne _ h]
    exact ht

end

end Sys2Proof.Machine
end

section
/-! SUPPORT. The frame that an output frame start begins on a channel (R10, R84, R105), and what the start's other work makes of it:
a swap refreshes it (R150), RESET CHANNEL abandons it (R89, R139), RESTART DEVICE takes its context away (R122, R165). -/

namespace Sys2Proof.Machine

open Sys2Proof

/-! ### The controller's work -/

/-- Every channel's settings stand, and of every channel but `c` the frame too. -/
structure ControlMoves (c : Chan) (s t : State) : Prop where
  settings : ∀ d, startSettings (t.ch d) = startSettings (s.ch d)
  others   : ∀ d, d ≠ c → startView (t.ch d) = startView (s.ch d)

section

variable {c : Chan} {s t u : State}

theorem startSettings_of_view {old new : Channel} (h : startView new = startView old) :
    startSettings new = startSettings old := congrArg StartView.settings h

theorem ViewsStand.control (h : ViewsStand s t) : ControlMoves c s t :=
  ⟨fun d => startSettings_of_view (h d), fun d _ => h d⟩

theorem ControlMoves.trans (h : ControlMoves c s t) (k : ControlMoves c t u) : ControlMoves c s u :=
  ⟨fun d => (k.settings d).trans (h.settings d), fun d hd => (k.others d hd).trans (h.others d hd)⟩

theorem controlMoves_setCh {x : Channel} (h : startSettings x = startSettings (s.ch c)) : ControlMoves c s (s.setCh c x) := by
  refine ⟨fun d => ?_, fun d hd => by rw [State.ch_setCh_ne _ hd]⟩
  by_cases hd : d = c
  · subst hd; rw [State.ch_setCh_same]; exact h
  · rw [State.ch_setCh_ne _ hd]

theorem controlMoves_endFrame (c : Chan) (s : State) : ControlMoves c s (endFrame c s) := by
  obtain ⟨stats, track, burst, h⟩ := endFrame_eq c s
  obtain ⟨hsettings, hothers⟩ : ControlMoves c s (s.setCh c
    { s.ch c with engine := none, stats := stats, cad := { (s.ch c).cad with track := track } }) := controlMoves_setCh (by rfl)
  rw [h]
  exact ⟨hsettings, hothers⟩

theorem viewsStand_frameValuesInForce (c : Chan) (n : Nat) (s : State) : ViewsStand s (s.modCh c (frameValuesInForce n)) := by
  refine viewsStand_modCh ?_
  unfold frameValuesInForce
  split
  · split <;> rfl
  · rfl

theorem viewsStand_takeCentre (c : Chan) (num : Nat) (s : State) : ViewsStand s (takeCentre c num s) :=
  (ViewsStand.trans (viewsStand_modCh (by rfl)) (viewsStand_removeFromRing c _ _)).trans (viewsStand_modCh (by rfl))

/-- Scheduling reaches the ring, the last output field, the counts and the reports (R127 to R130). -/
theorem viewsStand_schedule (c : Chan) (s : State) : ViewsStand s (schedule c s).1 := by
  rcases schedule_cases c s rfl with ⟨-, h⟩ | ⟨x, -, -, h⟩ | ⟨x, -, -, h⟩ <;> rw [h]
  · unfold repeatCentre
    split
    · exact .refl s
    · exact ViewsStand.trans (viewsStand_modCh (by rfl)) (viewsStand_raise c _ _ _)
  · exact viewsStand_takeCentre c _ s
  · exact ((viewsStand_takeCentre c _ s).trans (viewsStand_modCh (by rfl))).trans (viewsStand_raise c _ _ _)

theorem viewsStand_lossActionWork (c : Chan) (s : State) : ViewsStand s (lossActionWork c s).1 := by
  unfold lossActionWork
  split
  · exact viewsStand_modCh rfl
  · exact .refl s
  · exact .refl s

theorem viewsStand_startingWork (c : Chan) (x : ChanState) (s : State) : ViewsStand s (startingWork c x s).1 := by
  unfold startingWork
  split
  · exact ViewsStand.trans (viewsStand_modCh (by rfl)) (viewsStand_schedule c _)
  · exact .refl s

theorem controlMoves_completeHalt (c : Chan) (tag : Byte) (s : State) : ControlMoves c s (completeHalt c tag s) := by
  have hstopped : ViewsStand (endFrame c s) ((flushRing c (endFrame c s)).modCh c stopChannel) :=
    (viewsStand_removeFromRing c _ []).trans (viewsStand_modCh (by rfl))
  exact (controlMoves_endFrame c s).trans (hstopped.trans (viewsStand_answer c _ tag 5 .done none [])).control

theorem controlMoves_chooseFrame (c : Chan) (n : Nat) (s : State) : ControlMoves c s (chooseFrame c n s).1 := by
  unfold chooseFrame
  split
  · exact (ViewsStand.refl s).control
  · exact (viewsStand_startingWork c _ s).control
  · exact (viewsStand_schedule c s).control
  · unfold haltingWork
    split
    · exact (ViewsStand.refl s).control
    · split
      · exact controlMoves_completeHalt c _ s
      · unfold originWork
        split
        · exact (viewsStand_schedule c s).control
        · exact (viewsStand_startingWork c _ s).control
        · exact (viewsStand_lossActionWork c s).control
        · exact (ViewsStand.refl s).control
        · exact (ViewsStand.refl s).control
  · exact (viewsStand_lossActionWork c s).control

/-- The controller's work begins a frame on its channel, by the settings it finds (R84, R105), and leaves the others. -/
theorem controlWork_view (c : Chan) (n : Nat) (s : State) :
    (∃ picture ch, startSettings ch = startSettings (s.ch c) ∧
      startView ((controlWork c n s).ch c) = startView (begunChannel s.tables s.rtu.family n picture ch)) ∧
    ∀ d, d ≠ c → startView ((controlWork c n s).ch d) = startView (s.ch d) := by
  obtain ⟨chosen, hchosen⟩ : ∃ r, r = if (s.ch c).haltDone then (endFrame c s, false) else
    chooseFrame c n ((endFrame c s).modCh c (frameValuesInForce n)) := ⟨_, rfl⟩
  have hwork : (s.ch c).haltDone = false → chosen = chooseFrame c n ((endFrame c s).modCh c (frameValuesInForce n)) :=
    fun h => by rw [hchosen, h]; rfl
  have hdone : (s.ch c).haltDone = true → chosen = (endFrame c s, false) := fun h => by rw [hchosen, h]; rfl
  have hmoves : ControlMoves c s chosen.1 := by
    cases h : (s.ch c).haltDone with
    | true => rw [hdone h]; exact controlMoves_endFrame c s
    | false =>
      rw [hwork h]
      exact ((controlMoves_endFrame c s).trans (viewsStand_frameValuesInForce c n _).control).trans
        (controlMoves_chooseFrame c n _)
  refine ⟨⟨chosen.2, chosen.1.ch c, hmoves.settings c, (begunMoves_controlWork hwork hdone).view⟩, fun d hd => ?_⟩
  rw [controlWork_eq hwork hdone, pumpEngine_view_ne c _ hd, State.ch_modCh_ne _ hd]
  exact hmoves.others d hd

end

/-! ### The frame begun (R10, R84, R105) -/

/-- The format that a frame beginning at output frame start `n` reads (R10). -/
def StartSettings.formatAt (n : Nat) (x : StartSettings) : Format :=
  match x.prior with
  | some (f, m) => if m = n then f else x.format
  | none => x.format

theorem formatAt_startSettings (n : Nat) (ch : Channel) : (startSettings ch).formatAt n = formatAt n ch.ctl := rfl

/-- A frame context latched at output frame start `n` from format `g`, with the coefficients of `tables` (R105). -/
structure ContextBegun (n : Nat) (tables : Tables) (family : Family) (g : Format) (x : ScalerFrame) : Prop where
  begun    : x.begun = n
  period   : x.period = 0
  nextLine : x.nextLine = 0
  prevLine : x.prevLine = none
  family   : x.family = family
  vcoefs   : x.vcoefs = tableImage tables (.coef x.vset)
  hcoefs   : x.hcoefs = tableImage tables (.coef x.hset)
  format   : x.raster = g.raster ∧ x.aspect = g.aspect ∧ x.fill = g.fill ∧ x.vset = g.vset ∧ x.hset = g.hset ∧
    (x.bandFirst, x.bandCount) = sourceBand g.aspect g.standard

/-- A frame begun at output frame start `n`: its context, with an engine's frame only in a picture; or, with the context
taken away by a device restart, the rest of it at line period 0 (R84, R105, R122). -/
structure FrameBegun (n : Nat) (tables : Tables) (family : Family) (g : Format) (v : StartView) : Prop where
  restarted : v.scaler = none → v.engine = none ∧ ∃ x, v.ended = some x ∧ x.period = 0 ∧ x.family = family
  context   : ∀ x, v.scaler = some x → v.ended = none ∧ ContextBegun n tables family g x
  engine    : ∀ x b, v.scaler = some x → v.engine = some b →
    b.begun = n ∧ b.curve = tableImage tables (.curve b.curveNo) ∧ x.kind = .picture

/-- The frame that the engine and the Scaler begin (R84, R105). -/
theorem frameBegun_begunChannel (tables : Tables) (family : Family) (n : Nat) (picture : Bool) (ch : Channel) :
    FrameBegun n tables family ((startSettings ch).formatAt n) (startView (begunChannel tables family n picture ch)) := by
  refine ⟨fun h => (Option.some_ne_none _ h).elim, fun x hx => ?_, fun x b hx hb => ?_⟩
  · obtain rfl := Option.some.inj hx
    exact ⟨rfl, ⟨rfl, rfl, rfl, rfl, rfl, rfl, rfl, ⟨rfl, rfl, rfl, rfl, rfl, rfl⟩⟩⟩
  · obtain ⟨f, hf, rfl⟩ := Option.map_eq_some_iff.1 hb
    obtain ⟨z, hz, hkind⟩ := begunChannel_scaler tables family n picture ch
    obtain rfl : z = x := Option.some.inj (hz.symm.trans hx)
    obtain ⟨_, _, -, -, -, -, -, -, -, -, -, -, hcurve, -, -, -, hbegun, -⟩ := begunChannel_latched hf
    exact ⟨hbegun, hcurve, hkind.2 (by rw [hf]; exact Option.some_ne_none f)⟩

/-! ### A swap (R150) -/

/-- What a swap of entry `e` at output frame start `n` makes of a channel's frame. -/
def swapView (n : Nat) (e : TableEntry) (image : List Byte) (v : StartView) : StartView :=
  match e with
  | .pattern _ => v
  | .coef i    => { v with scaler := v.scaler.map (refreshCoefs n i image) }
  | .curve i   => { v with engine := v.engine.map fun b => if b.begun = n ∧ b.curveNo = i then { b with curve := image } else b }

theorem engineView_refreshCurve (n : Nat) (i : Fin 4) (image : List Byte) (f : Frame) :
    engineView (refreshCurve n i image f) =
      if (engineView f).begun = n ∧ (engineView f).curveNo = i then { engineView f with curve := image } else engineView f := by
  unfold refreshCurve engineView
  split <;> rfl

theorem handSwap_view (n : Nat) (e : TableEntry) (image : List Byte) (c : Chan) (s : State) :
    startView ((handSwap n e image c s).ch c) = swapView n e image (startView (s.ch c)) ∧
    ∀ d, d ≠ c → startView ((handSwap n e image c s).ch d) = startView (s.ch d) := by
  cases e with
  | pattern i => exact ⟨viewsStand_swapTracker c s i c, fun d _ => viewsStand_swapTracker c s i d⟩
  | coef i =>
    refine ⟨?_, fun d hd => by unfold handSwap; rw [State.ch_modCh_ne _ hd]⟩
    unfold handSwap
    rw [State.ch_modCh_same]
    rfl
  | curve i =>
    refine ⟨?_, fun d hd => by unfold handSwap; rw [State.ch_modCh_ne _ hd]⟩
    unfold handSwap
    rw [State.ch_modCh_same]
    unfold startView swapView
    simp only [Option.map_map, Function.comp_def, engineView_refreshCurve]
    rfl

/-- An operation that changes each channel's view in turn changes every one once. -/
theorem eachChan_view {f : Chan → State → State} {g : StartView → StartView}
    (hf : ∀ c s, startView ((f c s).ch c) = g (startView (s.ch c)) ∧ ∀ d, d ≠ c → startView ((f c s).ch d) = startView (s.ch d))
    (s : State) (d : Chan) : startView ((eachChan f s).ch d) = g (startView (s.ch d)) := by
  have hown := fun c s => (hf c s).1
  have hne := fun c s d h => (hf c s).2 d h
  unfold eachChan
  cases d with
  | c0 => rw [hne .c3 _ _ (by decide), hne .c2 _ _ (by decide), hne .c1 _ _ (by decide), hown]
  | c1 => rw [hne .c3 _ _ (by decide), hne .c2 _ _ (by decide), hown, hne .c0 _ _ (by decide)]
  | c2 => rw [hne .c3 _ _ (by decide), hown, hne .c1 _ _ (by decide), hne .c0 _ _ (by decide)]
  | c3 => rw [hown, hne .c2 _ _ (by decide), hne .c1 _ _ (by decide), hne .c0 _ _ (by decide)]

/-- The loader's work leaves tables and views, or swaps one entry in both (R150, R152). -/
theorem loaderWork_view (n : Nat) (s : State) :
    ((loaderWork n s).tables = s.tables ∧ ViewsStand s (loaderWork n s)) ∨
    ∃ e image, (loaderWork n s).tables = setTableImage s.tables e image ∧
      ∀ d, startView ((loaderWork n s).ch d) = swapView n e image (startView (s.ch d)) := by
  unfold loaderWork
  split
  · exact .inl ⟨rfl, .refl s⟩
  · unfold loaderAdvance
    split
    · exact .inl ⟨rfl, viewsStand_of_chans rfl⟩
    · split
      · next owner _ _ _ _ _ =>
        exact .inl ⟨(keepsDevice_raise owner _ _ _).tables, (ViewsStand.trans (viewsStand_of_chans (by rfl))
          (viewsStand_raise owner { s with loader := .idle, shadow := [] } _ _)).device rfl⟩
      · exact .inl ⟨rfl, viewsStand_of_chans rfl⟩
    · split
      · next owner e tag _ _ _ =>
        refine .inr ⟨e, s.shadow, ?_, fun d => ?_⟩
        · exact (keepsDevice_eachChan (keepsDevice_handSwap n e s.shadow)
            { s with tables := setTableImage s.tables e s.shadow }).tables
        · refine Eq.trans ?_ (eachChan_view (handSwap_view n e s.shadow) { s with tables := setTableImage s.tables e s.shadow } d)
          exact viewsStand_answer owner { eachChan (handSwap n e s.shadow)
            { s with tables := setTableImage s.tables e s.shadow } with loader := .idle, shadow := [] } tag 18 .done none [] d
      · exact .inl ⟨rfl, viewsStand_of_chans rfl⟩

/-- An entry's image after a swap (R150). -/
theorem tableImage_setTableImage (t : Tables) (e x : TableEntry) (image : List Byte) :
    tableImage (setTableImage t e image) x = if x = e then image else tableImage t x := by
  cases e <;> cases x <;> simp [tableImage, setTableImage, Vector.getElem_set, Fin.ext_iff, eq_comm]

/-- A frame begun at the swap's own output frame start stays one of the tables (R150). -/
theorem FrameBegun.swap {n : Nat} {tables : Tables} {family : Family} {g : Format} {v : StartView}
    (h : FrameBegun n tables family g v) (e : TableEntry) (image : List Byte) :
    FrameBegun n (setTableImage tables e image) family g (swapView n e image v) := by
  cases e with
  | pattern i =>
    refine ⟨h.restarted, fun x hx => ?_, fun x b hx hb => ?_⟩
    · obtain ⟨hended, hbegun, hperiod, hnext, hprev, hfamily, hv, hh, hformat⟩ := h.context x hx
      exact ⟨hended, hbegun, hperiod, hnext, hprev, hfamily, hv, hh, hformat⟩
    · exact h.engine x b hx hb
  | coef i =>
    refine ⟨fun hnone => h.restarted (Option.map_eq_none_iff.1 hnone), fun y hy => ?_, fun y b hy hb => ?_⟩
    · obtain ⟨x, hx, rfl⟩ := Option.map_eq_some_iff.1 hy
      obtain ⟨hended, hbegun, hperiod, hnext, hprev, hfamily, hv, hh, hformat⟩ := h.context x hx
      unfold refreshCoefs
      rw [if_pos hbegun]
      refine ⟨hended, hbegun, hperiod, hnext, hprev, hfamily, ?_, ?_, hformat⟩
      · simp only [tableImage_setTableImage, TableEntry.coef.injEq]
        split
        · rfl
        · exact hv
      · simp only [tableImage_setTableImage, TableEntry.coef.injEq]
        split
        · rfl
        · exact hh
    · obtain ⟨x, hx, rfl⟩ := Option.map_eq_some_iff.1 hy
      obtain ⟨hbegun, hcurve, hkind⟩ := h.engine x b hx hb
      refine ⟨hbegun, hcurve, ?_⟩
      unfold refreshCoefs
      split <;> exact hkind
  | curve i =>
    refine ⟨fun hnone => ?_, fun x hx => ?_, fun x b hx hb => ?_⟩
    · obtain ⟨hengine, hended⟩ := h.restarted hnone
      exact ⟨Option.map_eq_none_iff.2 hengine, hended⟩
    · obtain ⟨hended, hbegun, hperiod, hnext, hprev, hfamily, hv, hh, hformat⟩ := h.context x hx
      exact ⟨hended, hbegun, hperiod, hnext, hprev, hfamily, hv, hh, hformat⟩
    · obtain ⟨a, ha, rfl⟩ := Option.map_eq_some_iff.1 hb
      obtain ⟨hbegun, hcurve, hkind⟩ := h.engine x a hx ha
      by_cases hi : a.curveNo = i
      · rw [if_pos ⟨hbegun, hi⟩]
        refine ⟨hbegun, ?_, hkind⟩
        simp [tableImage_setTableImage, hi]
      · rw [if_neg fun h => hi h.2]
        refine ⟨hbegun, ?_, hkind⟩
        simpa [tableImage_setTableImage, hi] using hcurve

end Sys2Proof.Machine
end

section
/-! SUPPORT. What a directive taken makes of each channel's frame and settings (R10, R89, R122, R139, R159, R165). -/

namespace Sys2Proof.Machine

open Sys2Proof

/-! ### Frames under a directive -/

/-- What a directive taken makes of a frame: nothing, or RESET CHANNEL abandons it, or a device restart, with `restart`, takes
its context away and leaves the rest to be sent. -/
inductive FrameMoves (restart : Prop) (v w : StartView) : Prop
  | stands (hscaler : w.scaler = v.scaler) (hended : w.ended = v.ended) (hengine : w.engine = v.engine)
  | abandoned (hscaler : w.scaler = v.scaler.map abandonScaler) (hended : w.ended = v.ended) (hengine : w.engine = none)
  | ended (hrestart : restart) (hscaler : w.scaler = none)
      (hended : w.ended = match v.scaler with | some x => some (endedOf x) | none => v.ended) (hengine : w.engine = none)

/-- What a directive taken at output frame start `n` makes of a channel: no directive joins its queue, and the format of the
frame beginning there stays the one held before (R10, R159). -/
structure TakenView (restart : Prop) (n : Nat) (v w : StartView) : Prop where
  queue  : ∀ d ∈ w.settings.dirQueue, d ∈ v.settings.dirQueue
  format : w.settings.formatAt n = v.settings.formatAt n
  frame  : FrameMoves restart v w

/-- The same on every channel. -/
def ViewsTaken (restart : Prop) (n : Nat) (s t : State) : Prop :=
  ∀ d, TakenView restart n (startView (s.ch d)) (startView (t.ch d))

section

variable {restart : Prop} {n : Nat} {s t u : State} {v w : StartView}

theorem takenView_refl (v : StartView) : TakenView restart n v v := ⟨fun _ h => h, rfl, .stands rfl rfl rfl⟩

theorem ViewsStand.taken (h : ViewsStand s t) : ViewsTaken restart n s t := fun d => by
  rw [h d]; exact takenView_refl _

theorem ViewsTaken.stand (h : ViewsTaken restart n s t) (k : ViewsStand t u) : ViewsTaken restart n s u := fun d => by
  rw [k d]; exact h d

theorem TakenView.mono {p q : Prop} (hpq : p → q) (h : TakenView p n v w) : TakenView q n v w := by
  refine ⟨h.queue, h.format, ?_⟩
  cases h.frame with
  | stands hscaler hended hengine => exact .stands hscaler hended hengine
  | abandoned hscaler hended hengine => exact .abandoned hscaler hended hengine
  | ended hp hscaler hended hengine => exact .ended (hpq hp) hscaler hended hengine

/-- The head that is taken leaves the queue first. -/
theorem TakenView.of_queue {q : List Directive} (hq : ∀ d ∈ q, d ∈ v.settings.dirQueue)
    (h : TakenView restart n { v with settings := { v.settings with dirQueue := q } } w) : TakenView restart n v w := by
  refine ⟨fun d hd => hq d (h.queue d hd), h.format, ?_⟩
  cases h.frame with
  | stands hscaler hended hengine => exact .stands hscaler hended hengine
  | abandoned hscaler hended hengine => exact .abandoned hscaler hended hengine
  | ended hrestart hscaler hended hengine => exact .ended hrestart hscaler hended hengine

theorem viewsTaken_setCh {c : Chan} {x : Channel} (h : TakenView restart n (startView (s.ch c)) (startView x)) :
    ViewsTaken restart n s (s.setCh c x) := fun d => by
  by_cases hd : d = c
  · subst hd; rw [State.ch_setCh_same]; exact h
  · rw [State.ch_setCh_ne _ hd]; exact takenView_refl _

/-- A frame begun stays one, abandoned or ended as it may be (R89, R122). -/
theorem FrameBegun.moves {tables : Tables} {family : Family} {g : Format} (h : FrameBegun n tables family g v)
    (k : FrameMoves restart v w) : FrameBegun n tables family g w := by
  cases k with
  | stands hscaler hended hengine =>
    refine ⟨fun hnone => ?_, fun x hx => ?_, fun x b hx hb => ?_⟩
    · rw [hended, hengine]; exact h.restarted (hscaler ▸ hnone)
    · rw [hended]; exact h.context x (hscaler ▸ hx)
    · exact h.engine x b (hscaler ▸ hx) (hengine ▸ hb)
  | abandoned hscaler hended hengine =>
    refine ⟨fun hnone => ?_, fun y hy => ?_, fun x b _ hb => ?_⟩
    · rw [hended]
      exact ⟨hengine, (h.restarted (Option.map_eq_none_iff.1 (hscaler.symm.trans hnone))).2⟩
    · obtain ⟨x, hx, rfl⟩ := Option.map_eq_some_iff.1 (hscaler.symm.trans hy)
      obtain ⟨hnone, hbegun, hperiod, hnext, hprev, hfamily, hv, hh, hformat⟩ := h.context x hx
      exact ⟨hended.trans hnone, hbegun, hperiod, hnext, hprev, hfamily, hv, hh, hformat⟩
    · rw [hengine] at hb; cases hb
  | ended _ hscaler hended hengine =>
    refine ⟨fun _ => ⟨hengine, ?_⟩, fun x hx => ?_, fun x b _ hb => ?_⟩
    · rw [hended]
      cases hv : v.scaler with
      | none => exact (h.restarted hv).2
      | some x =>
        obtain ⟨-, hbegun⟩ := h.context x hv
        exact ⟨endedOf x, rfl, hbegun.period, hbegun.family⟩
    · rw [hscaler] at hx; cases hx
    · rw [hengine] at hb; cases hb

/-- Without a device restart a frame context stands. -/
theorem FrameMoves.scaler_ne_none (k : FrameMoves restart v w) (hrestart : ¬ restart) (h : v.scaler ≠ none) :
    w.scaler ≠ none := by
  cases k with
  | stands hscaler _ _ => rw [hscaler]; exact h
  | abandoned hscaler _ _ => rw [hscaler]; exact fun hnone => h (Option.map_eq_none_iff.1 hnone)
  | ended hr _ _ _ => exact absurd hr hrestart

end

/-! ### The directives -/

section

variable (c : Chan) (s : State) (n : Nat) (d : Directive)

/-- SET FORMAT stores a format behind the one that the frame beginning at this start reads (R10). -/
theorem viewsTaken_doSetFormat {restart : Prop} : ViewsTaken restart n s (doSetFormat c n d s) := by
  unfold doSetFormat
  split
  · next f _ _ =>
    refine ViewsTaken.stand (viewsTaken_setCh (c := c) ?_) (viewsStand_answer c _ _ _ _ _ _)
    exact ⟨fun _ h => h, (formatAt_stored n (s.ch c).ctl f n).trans (if_pos rfl), .stands rfl rfl rfl⟩
  · exact (viewsStand_answer c s _ _ _ _ _).taken
  · exact (viewsStand_answer c s _ _ _ _ _).taken

/-- A frame in progress is abandoned with its channel's ring (R89). -/
theorem viewsTaken_abandonFrame {restart : Prop} : ViewsTaken restart n s (abandonFrame c s) := by
  unfold abandonFrame
  split
  · exact (ViewsStand.refl s).taken
  · next f hf =>
    rw [leaveFrame_some hf, State.modCh_setCh_arbiter]
    have habandoned := viewsTaken_setCh (restart := restart) (n := n) (s := s) (c := c) (x :=
      { { s.ch c with engine := none, stats := PublishedBy f (s.ch c).stats } with
        scaler := (s.ch c).scaler.map abandonScaler }) ⟨fun _ h => h, rfl, .abandoned rfl rfl rfl⟩
    exact habandoned.stand (viewsStand_of_chans rfl)

/-- RESET CHANNEL keeps the format, and abandons the frame (R89, R139, R140). -/
theorem viewsTaken_doResetChannel {restart : Prop} : ViewsTaken restart n s (doResetChannel c d s) := by
  have hreset : ViewsTaken restart n s ((flushRing c (abandonFrame c s)).modCh c resetChannelPart) :=
    (viewsTaken_abandonFrame c s n).stand ((viewsStand_removeFromRing c _ []).trans (viewsStand_modCh (by rfl)))
  have haborted : ∀ (r : Option HaltRecord) (l : LoadState) (u : State), ViewsStand u (abortCommit c l (abortHalt c r u)) := by
    intro r l u
    have hhalt : ViewsStand u (abortHalt c r u) := by
      unfold abortHalt
      split
      · exact viewsStand_answer c u _ _ _ _ _
      · exact .refl u
    unfold abortCommit
    split
    · split
      · exact hhalt.trans (viewsStand_answer c _ _ _ _ _ _)
      · exact hhalt
    · exact hhalt
    · exact hhalt
  have hanswered : ∀ (u : State), ViewsStand ((flushRing c (abandonFrame c s)).modCh c resetChannelPart) u →
      ViewsTaken restart n s (answerDone c d [] (abortCommit c s.loader (abortHalt c (s.ch c).ctl.halt u))) := fun u hu =>
    hreset.stand ((hu.trans (haborted _ _ u)).trans (viewsStand_answer c _ _ _ _ _ _))
  unfold doResetChannel
  dsimp only
  split
  · refine ViewsTaken.stand (hanswered _ ?_) (viewsStand_raise c _ _ _)
    exact viewsStand_of_chans rfl
  · exact hanswered _ (viewsStand_of_chans rfl)

theorem deviceRestart_ch (e : Chan) : (deviceRestart s).ch e = restartChannel (s.ch e) := by cases e <;> rfl

/-- RESTART DEVICE keeps the formats, empties every directive queue, and ends every frame (R122, R158, R165). -/
theorem viewsTaken_deviceRestart {restart : Prop} (h : restart) : ViewsTaken restart n s (deviceRestart s) := fun e => by
  rw [deviceRestart_ch]
  exact ⟨fun _ hd => (List.not_mem_nil hd).elim, rfl, .ended h rfl rfl rfl⟩

/-- The directives to a channel other than SET FORMAT and RESET CHANNEL leave frames and settings. -/
theorem viewsStand_channelDirectives :
    ViewsStand s (doProbe c d s) ∧ ViewsStand s (doSetParameters c n d s) ∧ ViewsStand s (doStart c d s) ∧
    ViewsStand s (doHalt c n d s) ∧ ViewsStand s (doReadStats c d s) := by
  have hanswer : ∀ (u : State) (code : AnswerCode) (r : Option Reason) (l : List Byte), ViewsStand s u →
      ViewsStand s (answer c d.tag d.kind code r l u) := fun u code r l h => h.trans (viewsStand_answer c u _ _ _ _ _)
  refine ⟨?_, ?_, ?_, ?_, ?_⟩
  · exact hanswer _ .done none _ (viewsStand_modCh (by rfl))
  · unfold doSetParameters
    split
    · exact hanswer _ _ _ _ (.refl s)
    · refine hanswer _ _ _ _ ?_
      split
      · exact ViewsStand.trans (viewsStand_modCh (by rfl)) (viewsStand_deliverHeld c _ 1)
      · exact viewsStand_modCh (by rfl)
  · unfold doStart
    split
    · split
      · exact hanswer _ _ _ _ (viewsStand_modCh (by rfl))
      · exact hanswer _ _ _ _ (.refl s)
    · exact hanswer _ _ _ _ (.refl s)
  · unfold doHalt
    split
    · exact viewsStand_modCh (by rfl)
    · exact viewsStand_modCh (by rfl)
    · exact viewsStand_modCh (by rfl)
    · exact hanswer _ _ _ _ (.refl s)
    · exact hanswer _ _ _ _ (.refl s)
  · unfold doReadStats
    refine hanswer _ _ _ _ ?_
    split
    · exact viewsStand_modCh (by rfl)
    · exact .refl s

/-- The load directives leave frames and settings. -/
theorem viewsStand_loadDirectives :
    ViewsStand s (doLoadBegin c d s) ∧ ViewsStand s (doLoadSegment c d s) ∧ ViewsStand s (doLoadCommit c n d s) ∧
    ViewsStand s (doLoadAbort c d s) ∧ ViewsStand s (doReadTable c d s) := by
  have hanswer : ∀ (u : State) (code : AnswerCode) (r : Option Reason) (l : List Byte), u.chans = s.chans →
      ViewsStand s (answer c d.tag d.kind code r l u) := fun u code r l h =>
    (viewsStand_of_chans h).trans (viewsStand_answer c u _ _ _ _ _)
  refine ⟨?_, ?_, ?_, ?_, ?_⟩
  · unfold doLoadBegin
    split
    · exact hanswer _ _ _ _ rfl
    · split <;> exact hanswer _ _ _ _ rfl
    · exact hanswer _ _ _ _ rfl
    · exact hanswer _ _ _ _ rfl
  · unfold doLoadSegment
    split
    · exact hanswer _ _ _ _ rfl
    · exact hanswer _ _ _ _ rfl
    · dsimp only
      split
      · exact hanswer _ _ _ _ rfl
      · split <;> exact hanswer _ _ _ _ rfl
  · unfold doLoadCommit
    split
    · exact hanswer _ _ _ _ rfl
    · exact hanswer _ _ _ _ rfl
    · split
      · exact hanswer _ _ _ _ rfl
      · split
        · exact hanswer _ _ _ _ rfl
        · split
          · exact hanswer _ _ _ _ rfl
          · exact viewsStand_of_chans rfl
  · unfold doLoadAbort
    split
    · exact hanswer _ _ _ _ rfl
    · exact hanswer _ _ _ _ rfl
    · split <;> exact hanswer _ _ _ _ rfl
  · unfold doReadTable
    split
    · exact hanswer _ _ _ _ rfl
    · dsimp only
      split <;> exact hanswer _ _ _ _ rfl

/-- The directives to the device other than RESTART DEVICE leave frames and settings. -/
theorem viewsStand_deviceDirectives :
    ViewsStand s (doDeviceStatus c d s) ∧ ViewsStand s (doClearErrors c d s) ∧ ViewsStand s (doSetDeviceOptions c d s) ∧
    ViewsStand s (doArmProbe c d s) ∧ ViewsStand s (doReadProbe c d s) := by
  have hanswer : ∀ (u : State) (code : AnswerCode) (r : Option Reason) (l : List Byte), u.chans = s.chans →
      ViewsStand s (answer c d.tag d.kind code r l u) := fun u code r l h =>
    (viewsStand_of_chans h).trans (viewsStand_answer c u _ _ _ _ _)
  refine ⟨hanswer _ _ _ _ rfl, hanswer _ _ _ _ rfl, ?_, ?_, hanswer _ _ _ _ rfl⟩
  · unfold doSetDeviceOptions
    split <;> exact hanswer _ _ _ _ rfl
  · unfold doArmProbe
    split
    · exact hanswer _ _ _ _ rfl
    · split <;> exact hanswer _ _ _ _ rfl

theorem viewsTaken_carryOutKind (k : DirKind) : ViewsTaken (k = .restartDevice) n s (carryOutKind k c n d s) := by
  obtain ⟨hprobe, hparams, hstart, hhalt, hstats⟩ := viewsStand_channelDirectives c s n d
  obtain ⟨hbegin, hsegment, hcommit, habort, htable⟩ := viewsStand_loadDirectives c s n d
  obtain ⟨hstatus, hclear, hoptions, harm, hread⟩ := viewsStand_deviceDirectives c s d
  cases k with
  | probe => exact hprobe.taken
  | setFormat => exact viewsTaken_doSetFormat c s n d
  | setParameters => exact hparams.taken
  | start => exact hstart.taken
  | halt => exact hhalt.taken
  | resetChannel => exact viewsTaken_doResetChannel c s n d
  | readStats => exact hstats.taken
  | loadBegin => exact hbegin.taken
  | loadSegment => exact hsegment.taken
  | loadCommit => exact hcommit.taken
  | loadAbort => exact habort.taken
  | readTable => exact htable.taken
  | deviceStatus => exact hstatus.taken
  | clearErrors => exact hclear.taken
  | setDeviceOptions => exact hoptions.taken
  | armProbe => exact harm.taken
  | readProbe => exact hread.taken
  | restartDevice => exact viewsTaken_deviceRestart s n rfl

end

/-! ### The taking (R159) -/

/-- RESTART DEVICE is kind 47 alone (R162). -/
theorem toNat_of_restartDevice {kind : Byte} (h : dirKind? kind = some .restartDevice) : kind.toNat = 47 := by
  unfold dirKind? at h
  split at h <;> first | assumption | cases h

theorem viewsTaken_carryOut (c : Chan) (n : Nat) (d : Directive) (s : State) :
    ViewsTaken (d.kind.toNat = 47) n s (carryOut c n d s) := by
  unfold carryOut
  split
  · exact (viewsStand_answer c s _ _ _ _ _).taken
  · next k hk =>
    split
    · exact (viewsStand_answer c s _ _ _ _ _).taken
    · by_cases hrestart : k = .restartDevice
      · subst hrestart
        exact viewsTaken_deviceRestart s n (toNat_of_restartDevice hk)
      · exact fun e => (viewsTaken_carryOutKind c s n d k e).mono fun h => absurd h hrestart

/-- A directive taken makes of every channel what `TakenView` says, a device restart only where one waits in the queue. -/
theorem viewsTaken_takeNext (c : Chan) (n : Nat) (s : State) :
    ViewsTaken (∃ d ∈ (s.ch c).pku.dirQueue, d.kind.toNat = 47) n s (takeNext c n s) := by
  unfold takeNext
  split
  · exact (ViewsStand.refl s).taken
  · next d rest hqueue =>
    split
    · exact (ViewsStand.refl s).taken
    · split
      · intro e
        have htaken := (viewsTaken_carryOut c n d (s.modCh c (leaveQueue rest)) e).mono
          (q := ∃ d ∈ (s.ch c).pku.dirQueue, d.kind.toNat = 47) fun h => ⟨d, by rw [hqueue]; exact List.mem_cons_self, h⟩
        by_cases he : e = c
        · subst he
          rw [State.ch_modCh_same] at htaken
          refine htaken.of_queue fun x hx => ?_
          show x ∈ (s.ch e).pku.dirQueue
          rw [hqueue]
          exact List.mem_cons_of_mem d hx
        · rw [State.ch_modCh_ne _ he] at htaken
          exact htaken
      · exact (viewsStand_modCh (by rfl)).taken

end Sys2Proof.Machine
end

section
/-! SUPPORT. The output frame start as a whole (R120): the order of its work, what the work keeps, and the frame that every channel
has begun when it is over. -/

namespace Sys2Proof.Machine

open Sys2Proof

/-! ### The order of the work (R120, R159) -/

/-- The work claimed is all the work, once. -/
theorem claimWork_perm (order left : List StartWork) : (claimWork order left).Perm left := by
  induction order generalizing left with
  | nil => exact .refl _
  | cons w ws ih =>
    unfold claimWork
    split
    · next h =>
      have hmem : w ∈ left := by simpa using h
      exact ((ih _).cons w).trans (List.perm_cons_erase hmem).symm
    · exact ih left

/-- An order that names no piece more often than it is done comes first. -/
theorem prefix_claimWork {order left : List StartWork} (h : ∀ w, order.count w ≤ left.count w) :
    order <+: claimWork order left := by
  induction order generalizing left with
  | nil => exact List.nil_prefix
  | cons w ws ih =>
    have hmem : w ∈ left := by
      have hw := h w
      rw [List.count_cons_self] at hw
      exact List.count_pos_iff.1 (by omega)
    unfold claimWork
    rw [if_pos (by simpa using hmem), List.prefix_cons_inj]
    refine ih fun v => ?_
    have hv := h v
    rw [List.count_cons] at hv
    rw [List.count_erase]
    omega

/-- Each piece of work once, and a directive taken twice per channel (R159). -/
theorem count_allWork (w : StartWork) : allWork.count w = match w with | .packet _ => 2 | _ => 1 := by
  cases w with
  | announce => decide
  | loader => decide
  | control c => cases c <;> decide
  | loss c => cases c <;> decide
  | report c => cases c <;> decide
  | packet c => cases c <;> decide

/-- What the work keeps, and its beginning and its end, the output frame start keeps. -/
theorem issueStart_keeps {P : State → Prop} {news : State → State} {order : List StartWork} {s : State}
    (hbegin : P { s with startNo := s.startNo + 1, startSeen := true })
    (hwork : ∀ u w, P u → P (doWork news (s.startNo + 1) u w)) (hclose : ∀ u, P u → P (closeStart u)) :
    P (issueStart news order s) :=
  hclose _ (List.foldlRecOn (motive := P) _ _ hbegin fun u hu w _ => hwork u w hu)

/-! ### The news -/

/-- News of the Reference Timing Unit as reports alone: no frame, no setting and nothing of the device moves. -/
structure ReportsOnly (news : State → State) : Prop where
  device : ∀ s, KeepsDevice s (news s)
  views  : ∀ s, ViewsStand s (news s)

theorem reportsOnly_pulseNews (x : Rtu) (f : Family) : ReportsOnly (pulseNews x f) :=
  ⟨keepsDevice_pulseNews x f, fun s => viewsStand_pulseNews s x f⟩

theorem reportsOnly_raiseAll (k : EventKind) : ReportsOnly (raiseAll k) := ⟨keepsDevice_raiseAll k, fun s => viewsStand_raiseAll s k⟩

theorem reportsOnly_id : ReportsOnly id := ⟨KeepsDevice.refl, ViewsStand.refl⟩

/-! ### Directive queues (R159) -/

/-- No piece of work but the taking of a directive reaches a channel's settings. -/
theorem settings_doWork {news : State → State} (hnews : ReportsOnly news) (n : Nat) (s : State) {w : StartWork}
    (hw : ∀ c, w ≠ .packet c) (d : Chan) : startSettings ((doWork news n s w).ch d) = startSettings (s.ch d) := by
  cases w with
  | announce => exact startSettings_of_view (hnews.views s d)
  | loader =>
    rcases loaderWork_view n s with ⟨-, h⟩ | ⟨e, image, -, h⟩
    · exact startSettings_of_view (h d)
    · refine (congrArg StartView.settings (h d)).trans ?_
      cases e <;> rfl
  | control c =>
    obtain ⟨⟨picture, ch, hsettings, hown⟩, hothers⟩ := controlWork_view c n s
    by_cases hd : d = c
    · subst hd
      exact (startSettings_of_view hown).trans hsettings
    · exact startSettings_of_view (hothers d hd)
  | loss c => exact startSettings_of_view (viewsStand_lossWork c s d)
  | report c => exact startSettings_of_view (viewsStand_reportWork c s d)
  | packet c => exact absurd rfl (hw c)

/-- No directive joins a queue at an output frame start. -/
theorem mem_dirQueue_doWork {news : State → State} (hnews : ReportsOnly news) (n : Nat) (s : State) (w : StartWork) (e : Chan)
    {d : Directive} (h : d ∈ ((doWork news n s w).ch e).pku.dirQueue) : d ∈ (s.ch e).pku.dirQueue := by
  by_cases hw : ∃ c, w = .packet c
  · obtain ⟨c, rfl⟩ := hw
    exact (viewsTaken_takeNext c n s e).queue d h
  · have hsettings := settings_doWork hnews n s (w := w) (fun c hc => hw ⟨c, hc⟩) e
    exact (congrArg StartSettings.dirQueue hsettings ▸ h : d ∈ (startSettings (s.ch e)).dirQueue)

/-! ### The frame that every channel begins (R84, R105) -/

/-- Before and behind the controller's work the frame of the start reads the format held before (R10). -/
theorem format_doWork {news : State → State} (hnews : ReportsOnly news) (n : Nat) (s : State) (w : StartWork) (c : Chan) :
    (startSettings ((doWork news n s w).ch c)).formatAt n = (startSettings (s.ch c)).formatAt n := by
  by_cases hw : ∃ d, w = .packet d
  · obtain ⟨d, rfl⟩ := hw
    exact (viewsTaken_takeNext d n s c).format
  · rw [settings_doWork hnews n s (fun d hd => hw ⟨d, hd⟩) c]

/-- The controller's work begins the frame. -/
theorem frameBegun_control (news : State → State) (n : Nat) (s : State) (c : Chan) :
    FrameBegun n s.tables s.rtu.family ((startSettings (s.ch c)).formatAt n)
      (startView ((doWork news n s (.control c)).ch c)) ∧ ((doWork news n s (.control c)).ch c).scaler ≠ none := by
  obtain ⟨⟨picture, ch, hsettings, hown⟩, -⟩ := controlWork_view c n s
  have hbegun := frameBegun_begunChannel s.tables s.rtu.family n picture ch
  rw [← hown, hsettings] at hbegun
  refine ⟨hbegun, fun h => ?_⟩
  have hscaler := (congrArg StartView.scaler hown).symm.trans h
  cases hscaler

/-- No RESTART DEVICE waits in a directive queue (R162, R165). -/
def NoRestartWaits (s : State) : Prop := ∀ e, ∀ d ∈ (s.ch e).pku.dirQueue, d.kind.toNat ≠ 47

theorem noRestartWaits_doWork {news : State → State} (hnews : ReportsOnly news) (n : Nat) {s : State} (w : StartWork)
    (h : NoRestartWaits s) : NoRestartWaits (doWork news n s w) := fun e d hd =>
  h e d (mem_dirQueue_doWork hnews n s w e hd)

/-- The other work of the start keeps the frame begun, and its context too without a device restart. -/
theorem frameBegun_doWork {news : State → State} (hnews : ReportsOnly news) {n : Nat} {s : State} {w : StartWork} {c : Chan}
    (hw : w ≠ .control c) {family : Family} {g : Format} (h : FrameBegun n s.tables family g (startView (s.ch c))) :
    FrameBegun n (doWork news n s w).tables family g (startView ((doWork news n s w).ch c)) ∧
    (NoRestartWaits s → (s.ch c).scaler ≠ none → ((doWork news n s w).ch c).scaler ≠ none) := by
  have hstands : ∀ t : State, t.tables = s.tables → startView (t.ch c) = startView (s.ch c) →
      FrameBegun n t.tables family g (startView (t.ch c)) ∧
      (NoRestartWaits s → (s.ch c).scaler ≠ none → (t.ch c).scaler ≠ none) := by
    intro t htables hview
    rw [htables, hview]
    exact ⟨h, fun _ hs => (congrArg StartView.scaler hview).trans_ne hs⟩
  cases w with
  | announce => exact hstands _ (hnews.device s).tables (hnews.views s c)
  | loader =>
    rcases loaderWork_view n s with ⟨htables, hviews⟩ | ⟨e, image, htables, hviews⟩
    · exact hstands _ htables (hviews c)
    · have hview : startView ((doWork news n s .loader).ch c) = swapView n e image (startView (s.ch c)) := hviews c
      have htable : (doWork news n s .loader).tables = setTableImage s.tables e image := htables
      rw [hview, htable]
      refine ⟨h.swap e image, fun _ hs hnone => ?_⟩
      have hscaler := (congrArg StartView.scaler hview).symm.trans hnone
      cases e with
      | pattern i => exact hs hscaler
      | coef i => exact hs (Option.map_eq_none_iff.1 hscaler)
      | curve i => exact hs hscaler
  | control e =>
    have hne : c ≠ e := fun heq => hw (heq ▸ rfl)
    exact hstands _ (keepsDevice_controlWork e n s).tables ((controlWork_view e n s).2 c hne)
  | loss e => exact hstands _ (keepsDevice_lossWork e s).tables (viewsStand_lossWork e s c)
  | report e => exact hstands _ (keepsDevice_reportWork e s).tables (viewsStand_reportWork e s c)
  | packet e =>
    have htaken := (viewsTaken_takeNext e n s c).frame
    have htables : (doWork news n s (.packet e)).tables = s.tables := (takeNext_keeps e n s).2
    rw [htables]
    exact ⟨h.moves htaken, fun hnone hs => htaken.scaler_ne_none (fun ⟨d, hd, hkind⟩ => hnone e d hd hkind) hs⟩

/-- Ahead of channel `c`'s controller in output frame start `n`: the frame to come is of format `g` and family `family`. -/
structure FrameAwaited (n : Nat) (c : Chan) (family : Family) (g : Format) (noRestart : Prop) (s : State) : Prop where
  family    : s.rtu.family = family
  format    : (startSettings (s.ch c)).formatAt n = g
  noRestart : noRestart → NoRestartWaits s

/-- Behind it: the frame is begun, and its context stands unless a device restart comes. -/
structure FrameUnderWay (n : Nat) (c : Chan) (family : Family) (g : Format) (noRestart : Prop) (s : State) : Prop where
  begun     : FrameBegun n s.tables family g (startView (s.ch c))
  noRestart : noRestart → NoRestartWaits s ∧ (s.ch c).scaler ≠ none

section

variable {news : State → State} (hnews : ReportsOnly news) {n : Nat} {c : Chan} {family : Family} {g : Format}
  {noRestart : Prop}

include hnews

theorem FrameAwaited.doWork {s : State} (h : FrameAwaited n c family g noRestart s) (w : StartWork) :
    FrameAwaited n c family g noRestart (doWork news n s w) :=
  ⟨(congrArg Rtu.family (keepsTiming_doWork hnews.device n s w).rtu).trans h.family,
    (format_doWork hnews n s w c).trans h.format, fun hr => noRestartWaits_doWork hnews n w (h.noRestart hr)⟩

theorem FrameAwaited.control {s : State} (h : FrameAwaited n c family g noRestart s) :
    FrameUnderWay n c family g noRestart (Machine.doWork news n s (.control c)) := by
  obtain ⟨hbegun, hscaler⟩ := frameBegun_control news n s c
  have htables : (Machine.doWork news n s (.control c)).tables = s.tables := (keepsDevice_controlWork c n s).tables
  rw [h.family, h.format, ← htables] at hbegun
  exact ⟨hbegun, fun hr => ⟨noRestartWaits_doWork hnews n _ (h.noRestart hr), hscaler⟩⟩

theorem FrameUnderWay.doWork {s : State} (h : FrameUnderWay n c family g noRestart s) {w : StartWork} (hw : w ≠ .control c) :
    FrameUnderWay n c family g noRestart (doWork news n s w) := by
  obtain ⟨hbegun, hscaler⟩ := frameBegun_doWork hnews hw h.begun
  exact ⟨hbegun, fun hr => ⟨noRestartWaits_doWork hnews n w (h.noRestart hr).1, hscaler (h.noRestart hr).1 (h.noRestart hr).2⟩⟩

/-- Work in which the controller of channel `c` works once begins the channel's frame, wherever it stands in the order. -/
theorem frameUnderWay_foldl {l : List StartWork} (hcount : l.count (.control c) = 1) {s : State}
    (h : FrameAwaited n c family g noRestart s) : FrameUnderWay n c family g noRestart (l.foldl (Machine.doWork news n) s) := by
  obtain ⟨l₁, l₂, rfl⟩ := List.append_of_mem (List.count_pos_iff.1 (by omega : 0 < l.count (.control c)))
  have hbehind : StartWork.control c ∉ l₂ := fun hmem => by
    have hpos := List.count_pos_iff.2 hmem
    rw [List.count_append, List.count_cons_self] at hcount
    omega
  rw [List.foldl_append, List.foldl_cons]
  have hahead := List.foldlRecOn (motive := FrameAwaited n c family g noRestart) l₁ (Machine.doWork news n) h
    fun u hu w _ => hu.doWork hnews w
  exact List.foldlRecOn (motive := FrameUnderWay n c family g noRestart) l₂ _ (hahead.control hnews)
    fun u hu w hw => hu.doWork hnews fun heq => hbehind (heq ▸ hw)

end

/-- What rows did ahead of the start is forgotten when it is over (log entry 2). -/
theorem closeStart_ch (s : State) (c : Chan) : (closeStart s).ch c = { s.ch c with
    pku := { (s.ch c).pku with taken := 0 }, lossDone := false, haltDone := false } := by cases c <;> rfl

/-- When the work of an output frame start is over, every channel has begun its frame, in the family then held, in the format
held before the start's SET FORMAT, and with the tables as they then stand. -/
theorem frameUnderWay_issueStart {news : State → State} (hnews : ReportsOnly news) (order : List StartWork) (s : State)
    (c : Chan) : FrameUnderWay (s.startNo + 1) c s.rtu.family (formatAt (s.startNo + 1) (s.ch c).ctl) (NoRestartWaits s)
      (issueStart news order s) := by
  have hcount : (claimWork order allWork).count (.control c) = 1 := by
    rw [(claimWork_perm order allWork).count_eq, count_allWork]
  obtain ⟨hbegun, hnone⟩ := frameUnderWay_foldl hnews hcount
    (s := { s with startNo := s.startNo + 1, startSeen := true }) (n := s.startNo + 1) (noRestart := NoRestartWaits s)
    ⟨rfl, rfl, id⟩
  unfold issueStart
  refine ⟨?_, fun hr => ⟨fun e d hd => ?_, ?_⟩⟩
  · rw [closeStart_ch]
    exact hbegun
  · rw [closeStart_ch] at hd
    exact (hnone hr).1 e d hd
  · rw [closeStart_ch]
    exact (hnone hr).2

end Sys2Proof.Machine
end

section
/-! SUPPORT. The reference pulse and the timers (R114 to R119): the output frame start that each issues, its news, and what of the
device stands when no directive waits. -/

namespace Sys2Proof.Machine

open Sys2Proof

/-! ### The news (R116, R118, R119, R136) -/

/-- An event depends on its own channel and on the answer that the load owes (R161, R170). -/
theorem raise_ch_congr {c : Chan} {s t : State} (hch : t.ch c = s.ch c) (hload : t.loader = s.loader) (k : EventKind) (n : Nat) :
    (raise c k n t).ch c = (raise c k n s).ch c := by
  rw [raise_ch_same, raise_ch_same c s, raise_rep_congr (by rw [hch]) (by rw [hch]) hload, hch]

/-- An operation on each channel that reaches it alone, and depends on it and on the load alone, is there what it is by itself. -/
theorem eachChan_ch {f : Chan → State → State} (hne : ∀ c d s, d ≠ c → (f c s).ch d = s.ch d)
    (hload : ∀ c s, (f c s).loader = s.loader)
    (hcongr : ∀ c s t, t.ch c = s.ch c → t.loader = s.loader → (f c t).ch c = (f c s).ch c) (s : State) (c : Chan) :
    (eachChan f s).ch c = (f c s).ch c := by
  unfold eachChan
  cases c with
  | c0 => rw [hne .c3 _ _ (by decide), hne .c2 _ _ (by decide), hne .c1 _ _ (by decide)]
  | c1 =>
    rw [hne .c3 _ _ (by decide), hne .c2 _ _ (by decide)]
    exact hcongr _ _ _ (hne _ _ _ (by decide)) (hload _ _)
  | c2 =>
    rw [hne .c3 _ _ (by decide)]
    exact hcongr _ _ _ ((hne _ _ _ (by decide)).trans (hne _ _ _ (by decide))) ((hload _ _).trans (hload _ _))
  | c3 =>
    exact hcongr _ _ _ ((hne _ _ _ (by decide)).trans ((hne _ _ _ (by decide)).trans (hne _ _ _ (by decide))))
      ((hload _ _).trans ((hload _ _).trans (hload _ _)))

/-- An event on every channel is on each the event with its field count (R169). -/
theorem raiseAll_ch (k : EventKind) (s : State) (c : Chan) :
    (raiseAll k s).ch c = (raise c k (s.ch c).fieldCount s).ch c :=
  eachChan_ch (f := fun c t => raise c k (t.ch c).fieldCount t) (fun c d s h => raise_ch_ne c s h _ _)
    (fun c s => (keepsDevice_raise c _ _ s).loader)
    (fun c s t hch hload => by rw [hch]; exact raise_ch_congr hch hload _ _) s c

theorem familyChange_ch_ne (f : Family) {c d : Chan} (h : d ≠ c) (s : State) : (familyChange f c s).ch d = s.ch d := by
  unfold familyChange
  split
  · exact raise_ch_ne c s h _ _
  · rfl

theorem familyChange_ch_congr (f : Family) {c : Chan} {s t : State} (hch : t.ch c = s.ch c) (hload : t.loader = s.loader) :
    (familyChange f c t).ch c = (familyChange f c s).ch c := by
  unfold familyChange
  rw [hch]
  split
  · exact raise_ch_congr hch hload _ _
  · exact hch

/-- What a pulse raises on one channel (R115, R118, R119, R136). -/
theorem pulseNews_ch (x : Rtu) (f : Family) (s : State) (c : Chan) (h : x.state ≠ lockedState f) :
    (pulseNews x f s).ch c = if x.family = f then (raise c .refLocked (s.ch c).fieldCount s).ch c
      else (familyChange f c (raise c .refLocked (s.ch c).fieldCount s)).ch c := by
  have hother : plainPulse x f = false := by simpa [plainPulse] using h
  unfold pulseNews
  rw [hother, if_neg Bool.false_ne_true]
  split
  · exact raiseAll_ch _ s c
  · refine (eachChan_ch (fun c d s hd => familyChange_ch_ne f hd s) (fun c s => (keepsDevice_familyChange f c s).loader)
      (fun c s t => familyChange_ch_congr f) _ c).trans (familyChange_ch_congr f (raiseAll_ch _ s c) ?_)
    rw [(keepsDevice_raiseAll _ s).loader, (keepsDevice_raise c _ _ s).loader]

/-! ### An output frame start with no directive waiting -/

/-- No directive waits, and memory and the device-wide records are those of `s` (R120). -/
structure QuietSince (s t : State) : Prop where
  queues        : ∀ c, (t.ch c).pku.dirQueue = []
  dram          : t.dram = s.dram
  dramErrs      : t.dramErrs = s.dramErrs
  capture       : t.capture = s.capture
  inhibitSingle : t.inhibitSingle = s.inhibitSingle
  resetCause    : t.resetCause = s.resetCause
  startSeen     : t.startSeen = true

theorem takeNext_empty {c : Chan} {n : Nat} {s : State} (h : (s.ch c).pku.dirQueue = []) : takeNext c n s = s := by
  unfold takeNext; rw [h]

theorem QuietSince.doWork {news : State → State} (hnews : ReportsOnly news) {n : Nat} {s t : State} (h : QuietSince s t)
    (w : StartWork) : QuietSince s (doWork news n t w) := by
  obtain ⟨hqueues, hdram, herrs, hcapture, hinhibit, hcause, hseen⟩ := h
  have hempty : ∀ c, ((Machine.doWork news n t w).ch c).pku.dirQueue = [] := fun c =>
    List.eq_nil_iff_forall_not_mem.2 fun d hd => by
      have hmem := mem_dirQueue_doWork hnews n t w c hd
      rw [hqueues c] at hmem
      cases hmem
  have hdevice : ∀ u, KeepsDevice t u → (∀ c, (u.ch c).pku.dirQueue = []) → QuietSince s u := fun u hu hq =>
    ⟨hq, hu.dram.trans hdram, hu.dramErrs.trans herrs, hu.capture.trans hcapture, hu.inhibitSingle.trans hinhibit,
      hu.resetCause.trans hcause, hu.startSeen.trans hseen⟩
  cases w with
  | announce => exact hdevice _ (hnews.device t) hempty
  | loader =>
    have hloader : KeepsBesideTables t (Machine.doWork news n t .loader) := keepsBesideTables_loaderWork n t
    refine ⟨hempty, ?_, ?_, ?_, ?_, ?_, ?_⟩ <;> (rw [hloader]; assumption)
  | control c => exact hdevice _ (keepsDevice_controlWork c n t) hempty
  | loss c => exact hdevice _ (keepsDevice_lossWork c t) hempty
  | report c => exact hdevice _ (keepsDevice_reportWork c t) hempty
  | packet c =>
    have hnothing : Machine.doWork news n t (.packet c) = t := takeNext_empty (hqueues c)
    rw [hnothing]
    exact ⟨hqueues, hdram, herrs, hcapture, hinhibit, hcause, hseen⟩

theorem quietSince_issueStart {news : State → State} (hnews : ReportsOnly news) (order : List StartWork) {s : State}
    (h : ∀ c, (s.ch c).pku.dirQueue = []) : QuietSince s (issueStart news order s) := by
  refine issueStart_keeps (P := QuietSince s) ⟨h, rfl, rfl, rfl, rfl, rfl, rfl⟩ (fun u w hu => hu.doWork hnews w) fun u hu => ?_
  obtain ⟨hqueues, hdram, herrs, hcapture, hinhibit, hcause, hseen⟩ := hu
  exact ⟨fun c => by rw [closeStart_ch]; exact hqueues c, hdram, herrs, hcapture, hinhibit, hcause, hseen⟩

/-! ### The obligations -/

/-- Settles O41: the pulse's own items by `pulseRtu`, what the start keeps, and the news channel by channel. -/
theorem pulseResult : Obligations.PulseResult := by
  refine ⟨fun dt f order s r hstate hfamily hpulse hstart hdeadline => ?_, fun dt f order s => ?_, fun x f s c => ⟨fun h => ?_,
    fun h => ⟨fun hsame => ?_, fun hfamily hrunning hstandard => ?_⟩⟩⟩
  · have hr : r = pulseRtu f (s.now + dt) := by
      cases r
      cases f <;> cases hstate <;> cases hfamily <;> cases hpulse <;> cases hstart <;> cases hdeadline <;> rfl
    rw [hr]
    rfl
  · obtain ⟨haddress, hrtu, hnow, hstart, hpending⟩ := keepsTiming_issueStart (keepsDevice_pulseNews s.rtu f) order
      { s with now := s.now + dt, rtu := pulseRtu f (s.now + dt) }
    refine ⟨_, rfl, hnow, hstart, ?_, congrArg Rtu.family hrtu, congrArg Rtu.latestPulse hrtu, congrArg Rtu.latestStart hrtu, ?_,
      hpending, haddress, fun hquiet => ?_⟩
    · rw [hrtu]; cases f <;> rfl
    · rw [hrtu]; cases f <;> rfl
    · obtain ⟨-, hdram, herrs, hcapture, hinhibit, hcause, hseen⟩ := quietSince_issueStart (reportsOnly_pulseNews s.rtu f) order
        (s := { s with now := s.now + dt, rtu := pulseRtu f (s.now + dt) }) hquiet
      exact ⟨hdram, herrs, hcapture, hinhibit, hcause, hseen⟩
  · have hplain : plainPulse x f = true := by
      unfold plainPulse
      rw [decide_eq_true_iff, h]
      cases f <;> rfl
    unfold pulseNews
    rw [if_pos hplain]
  · have hother : x.state ≠ lockedState f := by cases f <;> exact h
    rw [pulseNews_ch x f s c hother]
    split
    · rfl
    · next hne =>
      have hch := raise_ch_same c s .refLocked (s.ch c).fieldCount
      unfold familyChange
      rw [hch, if_neg (by rcases hsame.resolve_left hne with hs | hs <;> simp [hs]), hch]
  · have hother : x.state ≠ lockedState f := by cases f <;> exact h
    have hch := raise_ch_same c s .refLocked (s.ch c).fieldCount
    rw [pulseNews_ch x f s c hother, if_neg hfamily]
    unfold familyChange
    rw [hch, if_pos ⟨hrunning, hstandard⟩]

/-- An expiry issues its output frame start in the state that `expire` leaves (R116, R117). -/
theorem expire_eq {s : State} {r : Rtu} {at' : Nat} (hat : at' = max s.now s.rtu.deadline) (hstate : r.state = .freeRun)
    (hfamily : r.family = s.rtu.family) (hpulse : r.latestPulse = none) (hstart : r.latestStart = some at')
    (hdeadline : r.deadline = at' + nominalPeriod s.rtu.family) : expire s = { s with now := at', rtu := r } := by
  have hr : r = freeRunRtu s.rtu.family at' := by
    cases r
    cases hstate
    cases hfamily
    cases hpulse
    cases hstart
    cases hdeadline
    rfl
  rw [hr, hat]
  rfl

/-- What every expiry's output frame start leaves (R116, R117, R120). -/
theorem issueStart_expire {news : State → State} (hnews : ReportsOnly news) (order : List StartWork) {s t : State} {at' : Nat}
    (hat : at' = max s.now s.rtu.deadline) (ht : t = issueStart news order (expire s)) :
    t.now = at' ∧ t.startNo = s.startNo + 1 ∧ t.rtu = freeRunRtu s.rtu.family at' ∧ t.pending = s.pending ∧
    t.deviceAddress = s.deviceAddress ∧ ((∀ c, (s.ch c).pku.dirQueue = []) → QuietSince s t) := by
  subst hat
  subst ht
  obtain ⟨haddress, hrtu, hnow, hstart, hpending⟩ := keepsTiming_issueStart hnews.device order (expire s)
  refine ⟨hnow, hstart, hrtu, hpending, haddress, fun hquiet => ?_⟩
  obtain ⟨hqueues, hdram, herrs, hcapture, hinhibit, hcause, hseen⟩ := quietSince_issueStart hnews order (s := expire s) hquiet
  exact ⟨hqueues, hdram, herrs, hcapture, hinhibit, hcause, hseen⟩

/-- Settles O42: each timer in its own state is an expiry, and in the other nothing. -/
theorem timersExpire : Obligations.TimersExpire := by
  refine ⟨fun order s at' hat => ⟨fun hfree => if_pos hfree, fun hlocked => if_neg hlocked, fun i hi => ?_,
    fun r hstate hfamily hpulse hstart hdeadline => ?_⟩, raiseAll_ch .refLost⟩
  · obtain ⟨news, hnews, hexec⟩ : ∃ news, ReportsOnly news ∧ exec i s = .next (issueStart news order (expire s)) := by
      rcases hi with ⟨rfl, hlocked⟩ | ⟨rfl, hfree⟩
      · exact ⟨_, reportsOnly_raiseAll .refLost, if_neg hlocked⟩
      · exact ⟨_, reportsOnly_id, if_pos hfree⟩
    obtain ⟨hnow, hstart, hrtu, hpending, haddress, hquiet⟩ := issueStart_expire hnews order hat rfl
    refine ⟨_, hexec, hnow, hstart, by rw [hrtu]; rfl, by rw [hrtu]; rfl, by rw [hrtu]; rfl, by rw [hrtu]; rfl, ?_, hpending,
      haddress, fun hempty => ?_⟩
    · rw [hrtu]
      show at' + nominalPeriod s.rtu.family = _
      cases s.rtu.family <;> rfl
    · obtain ⟨-, hdram, herrs, hcapture, hinhibit, hcause, hseen⟩ := hquiet hempty
      exact ⟨hdram, herrs, hcapture, hinhibit, hcause, hseen⟩
  · have hperiod : r.deadline = at' + nominalPeriod s.rtu.family := by
      rw [hdeadline]
      cases s.rtu.family <;> rfl
    rw [← expire_eq hat hstate hfamily hpulse hstart hperiod]
    exact ⟨fun hlocked => if_neg hlocked, fun hfree => if_pos hfree⟩

end Sys2Proof.Machine
end

section
/-! SUPPORT. The work of an output frame start does not read the count of output frame starts beside its own number, so that a
piece with a row of its own does ahead of the start what it does within (R120, R159; log entry 2). -/

namespace Sys2Proof.Machine

open Sys2Proof

/-- The state with another number of output frame starts issued. -/
def State.atStart (s : State) (m : Nat) : State := { s with startNo := m }

section

variable (c : Chan) (m n : Nat) (d : Directive) (s : State)

/-! ### What a state at another start still holds -/

@[simp] theorem State.ch_atStart : (s.atStart m).ch c = s.ch c := rfl

@[simp] theorem State.loader_atStart : (s.atStart m).loader = s.loader := rfl

@[simp] theorem State.shadow_atStart : (s.atStart m).shadow = s.shadow := rfl

@[simp] theorem State.tables_atStart : (s.atStart m).tables = s.tables := rfl

@[simp] theorem State.probe_atStart : (s.atStart m).probe = s.probe := rfl

@[simp] theorem State.arbiter_atStart : (s.atStart m).arbiter = s.arbiter := rfl

/-- A choice that the number of output frame starts does not enter (the two deciders may differ). -/
theorem ite_atStart {P : Prop} {inst inst' : Decidable P} {a b a' b' : State} (ha : a' = a.atStart m)
    (hb : b' = b.atStart m) : @ite _ P inst' a' b' = (@ite _ P inst a b).atStart m := by
  by_cases h : P
  · rw [if_pos h, if_pos h, ha]
  · rw [if_neg h, if_neg h, hb]

/-! ### Events, the receiver and the loader -/

theorem raise_atStart (k : EventKind) (field : Nat) : raise c k field (s.atStart m) = (raise c k field s).atStart m := by
  unfold raise
  exact ite_atStart m rfl rfl

theorem declareLoss_atStart : declareLoss c (s.atStart m) = (declareLoss c s).atStart m := by
  unfold declareLoss
  exact raise_atStart c m ((removeFromRing c (ringAfterLoss (s.ch c).ctl.state (s.ch c).ring) s).modCh c (fun x =>
    clearCadence { x with recv := receiverLoss x.recv, ctl := { x.ctl with state := stateAfterLoss x.ctl.state } })) _ _

theorem lossWork_atStart : lossWork c (s.atStart m) = (lossWork c s).atStart m := by
  have hadvance : lossAdvance c (s.atStart m) = (lossAdvance c s).atStart m := by
    unfold lossAdvance
    exact ite_atStart m rfl (ite_atStart m (declareLoss_atStart c m s) rfl)
  unfold lossWork
  rw [hadvance]
  exact ite_atStart m rfl rfl

theorem swapTracker_atStart (i : Fin 8) : swapTracker i c (s.atStart m) = (swapTracker i c s).atStart m := by
  unfold swapTracker
  exact ite_atStart m (raise_atStart c m ((s.setCh c { s.ch c with
    cad := { (s.ch c).cad with track := (patternSwapped i (s.ch c).cad.track).1 } }).modCh c (fun x =>
      { x with stats := { x.stats with cadenceLosses := satAdd x.stats.cadenceLosses 1 } })) _ _) rfl

theorem handSwap_atStart (e : TableEntry) (image : List Byte) :
    handSwap n e image c (s.atStart m) = (handSwap n e image c s).atStart m := by
  cases e with
  | pattern i => exact swapTracker_atStart c m s i
  | coef i => rfl
  | curve i => rfl

theorem swapTable_atStart (owner : Chan) (e : TableEntry) (tag : Byte) :
    swapTable n owner e tag (s.atStart m) = (swapTable n owner e tag s).atStart m := by
  have hhanded : eachChan (handSwap n e s.shadow) (State.atStart { s with tables := setTableImage s.tables e s.shadow } m) =
      (eachChan (handSwap n e s.shadow) { s with tables := setTableImage s.tables e s.shadow }).atStart m := by
    unfold eachChan
    simp only [handSwap_atStart]
  exact congrArg (fun u : State => answer owner tag 18 .done none [] { u with loader := .idle, shadow := [] }) hhanded

theorem loaderWork_atStart : loaderWork n (s.atStart m) = (loaderWork n s).atStart m := by
  have hadvance : loaderAdvance n (s.atStart m) = (loaderAdvance n s).atStart m := by
    unfold loaderAdvance
    simp only [State.loader_atStart]
    split
    · rfl
    · exact ite_atStart m (raise_atStart _ m { s with loader := .idle, shadow := [] } _ _) rfl
    · exact ite_atStart m (swapTable_atStart m n s _ _ _) rfl
  unfold loaderWork
  rw [hadvance]
  exact ite_atStart m rfl rfl

/-! ### Directives -/

theorem deliverHeld_atStart (places : Nat) : deliverHeld c places (s.atStart m) = (deliverHeld c places s).atStart m := by
  unfold deliverHeld
  exact ite_atStart m rfl rfl

theorem abandonFrame_atStart : abandonFrame c (s.atStart m) = (abandonFrame c s).atStart m := by
  unfold abandonFrame leaveFrame
  simp only [State.ch_atStart]
  cases (s.ch c).engine <;> rfl

theorem abortHalt_atStart (r : Option HaltRecord) : abortHalt c r (s.atStart m) = (abortHalt c r s).atStart m := by
  unfold abortHalt
  split <;> rfl

theorem abortCommit_atStart (l : LoadState) : abortCommit c l (s.atStart m) = (abortCommit c l s).atStart m := by
  unfold abortCommit
  split
  · split <;> rfl
  · rfl
  · rfl

theorem doResetChannel_atStart : doResetChannel c d (s.atStart m) = (doResetChannel c d s).atStart m := by
  have hanswered : ∀ (p : Probe) (l : LoadState) (shadow : List Byte), answerDone c d [] (abortCommit c s.loader
      (abortHalt c (s.ch c).ctl.halt { (flushRing c (abandonFrame c (s.atStart m))).modCh c resetChannelPart with
        probe := p, loader := l, shadow := shadow })) = (answerDone c d [] (abortCommit c s.loader
      (abortHalt c (s.ch c).ctl.halt { (flushRing c (abandonFrame c s)).modCh c resetChannelPart with
        probe := p, loader := l, shadow := shadow }))).atStart m := fun p l shadow => by
    have hflushed : { (flushRing c (abandonFrame c (s.atStart m))).modCh c resetChannelPart with
        probe := p, loader := l, shadow := shadow } = State.atStart { (flushRing c (abandonFrame c s)).modCh c resetChannelPart with
        probe := p, loader := l, shadow := shadow } m := by rw [abandonFrame_atStart]; rfl
    rw [hflushed, abortHalt_atStart, abortCommit_atStart]
    rfl
  unfold doResetChannel
  simp only [State.ch_atStart, State.loader_atStart, State.shadow_atStart, State.probe_atStart, hanswered]
  exact ite_atStart m (raise_atStart c m (answerDone c d [] (abortCommit c s.loader (abortHalt c (s.ch c).ctl.halt
    { (flushRing c (abandonFrame c s)).modCh c resetChannelPart with
      probe := probeAfterReset c s.probe
      loader := if ownsLoad c s.loader then .idle else s.loader
      shadow := if ownsLoad c s.loader then [] else s.shadow }))) _ _) rfl

theorem answerDone_atStart : answerDone c d [] (s.atStart m) = (answerDone c d [] s).atStart m := rfl

/-- The directives to a channel other than RESET CHANNEL. -/
theorem channelDirectives_atStart :
    doProbe c d (s.atStart m) = (doProbe c d s).atStart m ∧ doSetFormat c n d (s.atStart m) = (doSetFormat c n d s).atStart m ∧
    doSetParameters c n d (s.atStart m) = (doSetParameters c n d s).atStart m ∧
    doStart c d (s.atStart m) = (doStart c d s).atStart m ∧ doHalt c n d (s.atStart m) = (doHalt c n d s).atStart m ∧
    doReadStats c d (s.atStart m) = (doReadStats c d s).atStart m := by
  refine ⟨rfl, ?_, ?_, ?_, ?_, ?_⟩
  · unfold doSetFormat
    simp only [State.ch_atStart]
    split <;> rfl
  · unfold doSetParameters
    simp only [State.ch_atStart]
    split
    · rfl
    · next f fr mask _ =>
      refine (congrArg (answerDone c d []) ?_).trans (answerDone_atStart c m d _)
      exact ite_atStart m (deliverHeld_atStart c m (s.modCh c (storeParameters n f fr mask)) 1) rfl
  · unfold doStart
    exact ite_atStart m (ite_atStart m rfl rfl) rfl
  · unfold doHalt
    simp only [State.ch_atStart]
    split <;> rfl
  · unfold doReadStats
    simp only [State.ch_atStart]
    split <;> rfl

/-- The load directives. -/
theorem loadDirectives_atStart :
    doLoadBegin c d (s.atStart m) = (doLoadBegin c d s).atStart m ∧
    doLoadSegment c d (s.atStart m) = (doLoadSegment c d s).atStart m ∧
    doLoadCommit c n d (s.atStart m) = (doLoadCommit c n d s).atStart m ∧
    doLoadAbort c d (s.atStart m) = (doLoadAbort c d s).atStart m ∧
    doReadTable c d (s.atStart m) = (doReadTable c d s).atStart m := by
  refine ⟨?_, ?_, ?_, ?_, ?_⟩
  · unfold doLoadBegin
    simp only [State.loader_atStart]
    split
    · rfl
    · split <;> rfl
    · rfl
    · rfl
  · unfold doLoadSegment
    simp only [State.loader_atStart]
    split
    · rfl
    · rfl
    · split
      · rfl
      · split <;> rfl
  · unfold doLoadCommit
    simp only [State.loader_atStart, State.shadow_atStart]
    split
    · rfl
    · rfl
    · split
      · rfl
      · split
        · rfl
        · split <;> rfl
  · unfold doLoadAbort
    simp only [State.loader_atStart]
    split
    · rfl
    · rfl
    · split <;> rfl
  · unfold doReadTable
    simp only [State.tables_atStart]
    split
    · rfl
    · split <;> rfl

/-- The directives to the device other than RESTART DEVICE. -/
theorem deviceDirectives_atStart :
    doDeviceStatus c d (s.atStart m) = (doDeviceStatus c d s).atStart m ∧
    doClearErrors c d (s.atStart m) = (doClearErrors c d s).atStart m ∧
    doSetDeviceOptions c d (s.atStart m) = (doSetDeviceOptions c d s).atStart m ∧
    doArmProbe c d (s.atStart m) = (doArmProbe c d s).atStart m ∧
    doReadProbe c d (s.atStart m) = (doReadProbe c d s).atStart m := by
  refine ⟨rfl, rfl, ?_, ?_, rfl⟩
  · unfold doSetDeviceOptions
    split <;> rfl
  · unfold doArmProbe
    split
    · rfl
    · exact ite_atStart m rfl rfl

theorem cutBurst_atStart : cutBurst (s.atStart m) = (cutBurst s).atStart m := by
  unfold cutBurst
  simp only [State.arbiter_atStart]
  split
  · next e slot k words _ =>
    have hfold : (List.range 240).foldl (cutWordAt e slot k words s.draws) (s.atStart m) =
        ((List.range 240).foldl (cutWordAt e slot k words s.draws) s).atStart m := by
      refine List.foldl_hom (fun u : State => u.atStart m) fun u w => ?_
      unfold cutWordAt
      dsimp only
      split <;> rfl
    exact congrArg (fun u : State => { u with draws := s.draws + 1 }) hfold
  · rfl

theorem deviceRestart_atStart : deviceRestart (s.atStart m) = (deviceRestart s).atStart m := by
  unfold deviceRestart
  rw [cutBurst_atStart]
  rfl

theorem carryOutKind_atStart (k : DirKind) : carryOutKind k c n d (s.atStart m) = (carryOutKind k c n d s).atStart m := by
  obtain ⟨hprobe, hformat, hparams, hstart, hhalt, hstats⟩ := channelDirectives_atStart c m n d s
  obtain ⟨hbegin, hsegment, hcommit, habort, htable⟩ := loadDirectives_atStart c m n d s
  obtain ⟨hstatus, hclear, hoptions, harm, hread⟩ := deviceDirectives_atStart c m d s
  cases k with
  | probe => exact hprobe
  | setFormat => exact hformat
  | setParameters => exact hparams
  | start => exact hstart
  | halt => exact hhalt
  | resetChannel => exact doResetChannel_atStart c m d s
  | readStats => exact hstats
  | loadBegin => exact hbegin
  | loadSegment => exact hsegment
  | loadCommit => exact hcommit
  | loadAbort => exact habort
  | readTable => exact htable
  | deviceStatus => exact hstatus
  | clearErrors => exact hclear
  | setDeviceOptions => exact hoptions
  | armProbe => exact harm
  | readProbe => exact hread
  | restartDevice => exact deviceRestart_atStart m s

theorem carryOut_atStart : carryOut c n d (s.atStart m) = (carryOut c n d s).atStart m := by
  unfold carryOut
  split
  · rfl
  · exact ite_atStart m rfl (carryOutKind_atStart c m n d s _)

theorem takeNext_atStart : takeNext c n (s.atStart m) = (takeNext c n s).atStart m := by
  unfold takeNext
  simp only [State.ch_atStart]
  split
  · rfl
  · next d rest _ => exact ite_atStart m rfl (ite_atStart m (carryOut_atStart c m n d (s.modCh c (leaveQueue rest))) rfl)

end

end Sys2Proof.Machine
end

section
/-! SUPPORT. The pieces of an output frame start beside the rows that do them ahead of it: HALT_COMPLETE, the loader, the receiver's
loss work, the directives and the reports (R26, R132, R150, R152, R159, R168, R171; log entry 2). -/

namespace Sys2Proof.Machine

open Sys2Proof

/-! ### After HALT_COMPLETE (R132) -/

theorem quadSet_comm {α : Type} (q : Quad α) {c d : Chan} (h : d ≠ c) (x y : α) :
    quadSet (quadSet q c x) d y = quadSet (quadSet q d y) c x := by
  cases c <;> cases d <;> first | rfl | exact absurd rfl h

theorem State.modCh_comm (s : State) {c d : Chan} (h : d ≠ c) (f g : Channel → Channel) :
    (s.modCh c f).modCh d g = (s.modCh d g).modCh c f := by
  rw [State.modCh_eq (s.modCh c f), State.modCh_eq (s.modCh d g), State.ch_modCh_ne _ h, State.ch_modCh_ne _ h.symm]
  exact congrArg (fun q : Quad Channel => { s with chans := q }) (quadSet_comm s.chans h _ _)

/-- The channel with the entry to STOPPED done ahead of the start (log entry 2). -/
def withHaltDone (ch : Channel) : Channel := { ch with haltDone := true }

/-- What commutes with the mark on one channel commutes with it in the state. -/
theorem modCh_withHaltDone {f : Channel → Channel} (hf : ∀ ch, f (withHaltDone ch) = withHaltDone (f ch)) (s : State)
    (c d : Chan) : (s.modCh c withHaltDone).modCh d f = (s.modCh d f).modCh c withHaltDone := by
  by_cases h : d = c
  · subst h
    rw [State.modCh_modCh, State.modCh_modCh]
    simp only [hf]
  · exact State.modCh_comm s h _ _

theorem grantWriteTo_withHaltDone (ch : Channel) : grantWriteTo (withHaltDone ch) = withHaltDone (grantWriteTo ch) := by
  have hbuffer : (withHaltDone ch).recv.buffer = ch.recv.buffer := rfl
  have hring : (withHaltDone ch).ring = ch.ring := rfl
  unfold grantWriteTo
  rw [hbuffer, hring]
  split <;> rfl

/-- The arbiter does not read the mark. -/
theorem arbitrate_withHaltDone (c : Chan) (s : State) :
    arbitrate (s.modCh c withHaltDone) = (arbitrate s).modCh c withHaltDone := by
  have hunread : ∀ {α : Type} {g : Channel → α}, (∀ ch, g (withHaltDone ch) = g ch) → ∀ d,
      g ((s.modCh c withHaltDone).ch d) = g (s.ch d) := fun hg d => by
    by_cases h : d = c
    · subst h; rw [State.ch_modCh_same]; exact hg _
    · rw [State.ch_modCh_ne _ h]
  have hwriter : nextWriter (s.modCh c withHaltDone) = nextWriter s := by
    unfold nextWriter
    simp only [hunread (g := writeRequest) fun _ => rfl]
    rfl
  have hreader : nextReader (s.modCh c withHaltDone) = nextReader s := by
    unfold nextReader
    simp only [hunread (g := readRequest) fun _ => rfl]
    rfl
  have hburst : (s.modCh c withHaltDone).arbiter = s.arbiter := rfl
  unfold arbitrate
  rw [hwriter, hreader, hburst]
  split
  · rfl
  · split
    · next d slot l _ =>
      exact congrArg (fun u : State => { u with
        arbiter := { s.arbiter with burst := some (.write d slot l.line l.words), lastWrite := d } })
        (modCh_withHaltDone grantWriteTo_withHaltDone s c d)
    · split
      · next d src role k _ =>
        exact congrArg (fun u : State => { u with
          arbiter := { s.arbiter with burst := some (.read d src.slot k role src.num true true), lastRead := d } })
          (modCh_withHaltDone (f := grantReadTo) (fun _ => rfl) s c d)
      · rfl

/-- Frame values enter into force beside the end of the engine's frame. -/
theorem endFrame_modCh_frameValuesInForce (c : Chan) (n : Nat) (s : State) :
    endFrame c (s.modCh c (frameValuesInForce n)) = (endFrame c s).modCh c (frameValuesInForce n) := by
  have hch : (s.modCh c (frameValuesInForce n)).ch c = frameValuesInForce n (s.ch c) := State.ch_modCh_same s c _
  cases h : (s.ch c).engine with
  | none =>
    rw [endFrame_none h, endFrame_none]
    rw [hch, frameValuesInForce_eq]
    exact h
  | some f =>
    rw [endFrame_some h, endFrame_some (f := f)]
    · rw [State.modCh_setCh_arbiter, hch, State.modCh_eq, frameValuesInForce_eq, frameValuesInForce_eq]
      rw [State.setCh_setCh]
      rfl
    · rw [hch, frameValuesInForce_eq]
      exact h

theorem engine_endFrame (c : Chan) (s : State) : ((endFrame c s).ch c).engine = none := by
  obtain ⟨stats, track, hch⟩ := endFrame_ch_same c s
  rw [hch]

/-- HALT_COMPLETE ends the frame ahead of the start; within it the frame has ended already, and the entry is the same. -/
theorem completeHalt_endFrame (c : Chan) (tag : Byte) (n : Nat) (s : State) :
    completeHalt c tag ((endFrame c s).modCh c (frameValuesInForce n)) =
      completeHalt c tag (s.modCh c (frameValuesInForce n)) := by
  have hagain : endFrame c ((endFrame c s).modCh c (frameValuesInForce n)) = endFrame c (s.modCh c (frameValuesInForce n)) := by
    rw [endFrame_modCh_frameValuesInForce, endFrame_modCh_frameValuesInForce, endFrame_none (engine_endFrame c s)]
  unfold completeHalt
  rw [hagain]

theorem engine_completeHalt (c : Chan) (tag : Byte) (s : State) : ((completeHalt c tag s).ch c).engine = none := by
  rw [completeHalt_eq]
  exact (congrArg Channel.engine (quadGet_quadSet_same (endFrame c s).chans c _)).trans (engine_endFrame c s)

/-- A black frame begins with no engine's frame. -/
theorem pumpEngine_black (c : Chan) (tables : Tables) (family : Family) (n : Nat) (s : State) :
    pumpEngine c (s.modCh c (begunChannel tables family n false)) = arbitrate (s.modCh c (begunChannel tables family n false)) := by
  unfold pumpEngine
  rw [runEngine_without_frame]
  rw [State.ch_modCh_same]
  rfl

/-- After HALT_COMPLETE the controller's piece leaves what it would have left without it, and the mark (R132). -/
theorem controlWork_after_haltComplete {c : Chan} {s : State} {r : HaltRecord} (hstate : (s.ch c).ctl.state = .halting)
    (hhalt : (s.ch c).ctl.halt = some r) (hentry : r.entry < s.startNo + 1) (hdone : (s.ch c).haltDone = false) :
    controlWork c (s.startNo + 1) ((completeHalt c r.tag (s.modCh c (frameValuesInForce (s.startNo + 1)))).modCh c withHaltDone) =
      (controlWork c (s.startNo + 1) s).modCh c withHaltDone := by
  obtain ⟨n, hn⟩ : ∃ n, n = s.startNo + 1 := ⟨_, rfl⟩
  rw [← hn] at hentry ⊢
  obtain ⟨x, hx⟩ : ∃ x, x = completeHalt c r.tag (s.modCh c (frameValuesInForce n)) := ⟨_, rfl⟩
  have hengine : (x.ch c).engine = none := by rw [hx]; exact engine_completeHalt c r.tag _
  have hdevice : KeepsDevice s x := by
    rw [hx]
    exact (keepsDevice_modCh c _ s).trans (keepsDevice_completeHalt c r.tag _)
  have hwithin : controlWork c n s = arbitrate (x.modCh c (begunChannel s.tables s.rtu.family n false)) := by
    rw [controlWork_eq (chosen := (x, false)), pumpEngine_black]
    · intro _
      obtain ⟨stats, track, hch⟩ := endFrame_ch_same c s
      have hctl : (((endFrame c s).modCh c (frameValuesInForce n)).ch c).ctl = (frameValuesInForce n (s.ch c)).ctl := by
        rw [State.ch_modCh_same, hch, frameValuesInForce_eq, frameValuesInForce_eq]
      have hkept : (frameValuesInForce n (s.ch c)).ctl.state = .halting ∧ (frameValuesInForce n (s.ch c)).ctl.halt = some r := by
        unfold frameValuesInForce
        split
        · split <;> exact ⟨hstate, hhalt⟩
        · exact ⟨hstate, hhalt⟩
      obtain ⟨hhalting, hrecord⟩ := hkept
      rw [chooseFrame_halting (by rw [hctl]; exact hhalting) (by rw [hctl]; exact hrecord), if_pos hentry, completeHalt_endFrame, hx]
    · rw [hdone]
      exact fun h => absurd h Bool.false_ne_true
  have hended : endFrame c (x.modCh c withHaltDone) = x.modCh c withHaltDone :=
    endFrame_none (by rw [State.ch_modCh_same]; exact hengine)
  have hmark : ((x.modCh c withHaltDone).ch c).haltDone = true := by rw [State.ch_modCh_same]; rfl
  have hafter : controlWork c n (x.modCh c withHaltDone) =
      arbitrate ((x.modCh c withHaltDone).modCh c (begunChannel s.tables s.rtu.family n false)) := by
    rw [controlWork_eq (chosen := (x.modCh c withHaltDone, false)), pumpEngine_black]
    · show arbitrate ((x.modCh c withHaltDone).modCh c (begunChannel x.tables x.rtu.family n false)) = _
      rw [hdevice.tables, hdevice.rtu]
    · rw [hmark]
      exact fun h => absurd h.symm Bool.false_ne_true
    · rw [hended]
      exact fun _ => rfl
  rw [← hx, hafter, hwithin, ← arbitrate_withHaltDone, modCh_withHaltDone (f := begunChannel _ _ _ _) fun _ => rfl]

end Sys2Proof.Machine
end

section
/-! SUPPORT. Every output frame start does each consumer's work once, and begins a frame on every channel (R120). -/

namespace Sys2Proof.Machine

open Sys2Proof

/-! ### The pieces with a row of their own (log entry 2) -/

/-- A directive's row takes the directive of its kind at the head (R159). -/
theorem exec_directiveRow_head {c : Chan} {s : State} {d : Directive} {rest : List Directive}
    (h : (s.ch c).pku.dirQueue = d :: rest) :
    exec (directiveRow c (dirKind? d.kind)) s = .next (takeNext c (s.startNo + 1) s) := by
  have hrow : ∀ k, exec (directiveRow c k) s = .next (takeKind c k s) := fun k => by
    cases k with
    | none => rfl
    | some k => cases k <;> rfl
  rw [hrow]
  unfold takeKind
  rw [h]
  exact congrArg Host.Outcome.next (if_pos rfl)

/-- Directives taken at the start ahead, by their rows or within (R159). -/
theorem takeNext_full {c : Chan} {n : Nat} {s : State} (h : 2 ≤ (s.ch c).pku.taken) : takeNext c n s = s := by
  unfold takeNext
  split
  · rfl
  · exact if_pos h

/-- The second output frame start with the channel's input lost takes the loss (R26). -/
theorem exec_inputLoss_atStart {c : Chan} {s : State} (m : Nat) (hdone : (s.ch c).lossDone = false)
    (hstate : (s.ch c).recv.state ≠ .loss) (hcount : (s.ch c).recv.lossCount = 1) :
    exec (.inputLoss c) (s.atStart m) = .next ((lossWork c s).atStart m) :=
  (if_pos ⟨hdone, hstate, hcount⟩).trans (congrArg Host.Outcome.next (lossWork_atStart c m s))

/-- The first one counts it. -/
theorem lossWork_first {c : Chan} {s : State} (hdone : (s.ch c).lossDone = false) (hstate : (s.ch c).recv.state ≠ .loss)
    (hcount : (s.ch c).recv.lossCount = 0) : lossWork c s = s.setCh c { s.ch c with
      recv := { (s.ch c).recv with lossCount := 1 }, lossDone := true } := by
  unfold lossWork lossAdvance
  rw [hdone, if_neg Bool.false_ne_true, if_neg hstate, if_neg (by omega), State.modCh_modCh, State.modCh_eq, hcount]

/-- The loader counts a start with a load open (R152). -/
theorem loaderWork_counts {n : Nat} {s : State} {owner : Chan} {e : TableEntry} {got : Nat} {idleCount : Nat}
    (hload : s.loader = .loading owner e got idleCount) (hdone : s.loaderDone = false) (hidle : idleCount < 99) :
    loaderWork n s = { s with loader := .loading owner e got (idleCount + 1), loaderDone := true } := by
  unfold loaderWork loaderAdvance
  rw [hdone, if_neg Bool.false_ne_true, hload]
  dsimp only
  rw [if_neg (by omega)]

/-- The start that brings the idle count to 100 abandons the load, whatever its number (R152). -/
theorem exec_loadAbandoned_atStart {s : State} {owner : Chan} {e : TableEntry} {got : Nat} (n m : Nat)
    (hload : s.loader = .loading owner e got 99) (hdone : s.loaderDone = false) :
    exec .loadAbandoned (s.atStart m) = .next ((loaderWork n s).atStart m) := by
  have hrow : exec .loadAbandoned (s.atStart m) = .next (loaderWork (m + 1) (s.atStart m)) := by
    show execLoadAbandoned (s.atStart m) = _
    unfold execLoadAbandoned
    rw [State.loader_atStart, hload]
    exact if_pos ⟨by omega, hdone⟩
  rw [hrow, loaderWork_atStart, loaderWork_abandons hload (by omega) hdone, loaderWork_abandons hload (by omega) hdone]

/-- The load committed before swaps (R150). -/
theorem exec_tableSwap_atStart {s : State} {owner : Chan} {e : TableEntry} {tag : Byte} {k m : Nat}
    (hload : s.loader = .commitPending owner e tag k) (hdone : s.loaderDone = false) (hk : k ≤ m) :
    exec .tableSwap (s.atStart m) = .next ((loaderWork (m + 1) s).atStart m) := by
  rw [← loaderWork_atStart]
  show execTableSwap (s.atStart m) = _
  unfold execTableSwap
  rw [State.loader_atStart, hload]
  exact if_pos ⟨Nat.lt_succ_of_le hk, hdone⟩

/-- An entry to STOPPED done ahead of the start, and the controller's piece after it (R132). -/
theorem controlWork_of_exec_haltComplete {c : Chan} {s t : State} {r : HaltRecord} (hstate : (s.ch c).ctl.state = .halting)
    (hhalt : (s.ch c).ctl.halt = some r) (hentry : r.entry ≤ s.startNo) (hdone : (s.ch c).haltDone = false)
    (h : exec (.haltComplete c) s = .next t) :
    controlWork c (s.startNo + 1) t = (controlWork c (s.startNo + 1) s).modCh c withHaltDone := by
  have hrow : exec (.haltComplete c) s = .next ((completeHalt c r.tag (s.modCh c (frameValuesInForce (s.startNo + 1)))).modCh c
      withHaltDone) := by
    show execHaltComplete c s = _
    unfold execHaltComplete
    rw [hstate, hhalt]
    exact if_pos ⟨Nat.lt_succ_of_le hentry, hdone⟩
  obtain rfl := Host.Outcome.next.inj (h.symm.trans hrow)
  exact controlWork_after_haltComplete hstate hhalt (Nat.lt_succ_of_le hentry) hdone

/-! ### The reports (R168, R171) -/

theorem reserved_modCh_insertReports (c : Chan) (s : State) : (s.modCh c insertReports).reserved c = s.reserved c := by
  unfold State.reserved
  rw [State.ch_modCh_same]
  rfl

/-- The report port after the window has filled from the queue, and the held status has joined it if there is room. -/
theorem reportWork_eq {c : Chan} {s : State} {filled : ReportPort} (hfilled : filled = (insertReports (s.ch c)).rep) :
    reportWork c s = s.setCh c { s.ch c with
      rep :=
        if unmaskedKinds filled.held filled.mask ≠ 0 ∧ filled.queue.length + s.reserved c < 8 ∧ eventCount filled.queue < 6 then
          { filled with
            queue := filled.queue ++ [.event (unmaskedKinds filled.held filled.mask) filled.held.first filled.held.count]
            held := heldAfterDelivery filled.held filled.mask }
        else filled } := by
  subst hfilled
  have hroom : (s.modCh c insertReports).eventRoom c 0 = true ↔
      (insertReports (s.ch c)).rep.queue.length + s.reserved c < 8 ∧ eventCount (insertReports (s.ch c)).rep.queue < 6 := by
    unfold State.eventRoom State.freePlaces
    rw [reserved_modCh_insertReports, State.ch_modCh_same, Bool.and_eq_true, decide_eq_true_iff, decide_eq_true_iff,
      Nat.sub_pos_iff_lt]
  unfold reportWork deliverHeld
  simp only [hroom, State.modCh_modCh, State.ch_modCh_same]
  split <;> rfl

/-! ### The obligation -/

/-- The reference pulse, and each timer in its own state, issue one output frame start on the channels as they are. -/
theorem exec_issues_start {i : Instr} {order : List StartWork} {dt : Nat} {f : Family} {s t : State}
    (hi : i = .referencePulse dt f order ∨ (i = .refLossTimeout order ∧ s.rtu.state ≠ .freeRun) ∨
      (i = .freeRunExpiry order ∧ s.rtu.state = .freeRun)) (h : exec i s = .next t) :
    ∃ news u, ReportsOnly news ∧ u.startNo = s.startNo ∧ (∀ c, u.ch c = s.ch c) ∧ t = issueStart news order u := by
  rcases hi with rfl | ⟨rfl, hlocked⟩ | ⟨rfl, hfree⟩
  · exact ⟨pulseNews s.rtu f, { s with now := s.now + dt, rtu := pulseRtu f (s.now + dt) }, reportsOnly_pulseNews s.rtu f, rfl,
      fun _ => rfl, (Host.Outcome.next.inj h).symm⟩
  · exact ⟨raiseAll .refLost, expire s, reportsOnly_raiseAll .refLost, rfl, fun _ => rfl,
      Host.Outcome.next.inj (h.symm.trans (if_neg hlocked))⟩
  · exact ⟨id, expire s, reportsOnly_id, rfl, fun _ => rfl, Host.Outcome.next.inj (h.symm.trans (if_pos hfree))⟩

/-- Settles O43: the frame is begun and kept by all other work of the start, the work claimed is all of it, once, and each piece
is what its row does. -/
theorem everyChannelBeginsAFrame : Obligations.EveryChannelBeginsAFrame := by
  refine ⟨fun i order dt f s t hi h c => ?_, fun news order s => ⟨claimWork order allWork, fun w => ?_, fun hcount => ?_, rfl⟩,
    fun news n m s c => ⟨rfl, closeStart_ch s c, ⟨rfl, rfl, rfl⟩, fun hdone hstate =>
      ⟨exec_inputLoss_atStart m hdone hstate, lossWork_first hdone hstate⟩, fun owner e got idleCount hload hdone =>
      ⟨loaderWork_counts hload hdone, fun hidle => ?_⟩, fun owner e tag k hload hdone hk => exec_tableSwap_atStart hload hdone hk,
      fun r t hstate hhalt hentry hdone h => controlWork_of_exec_haltComplete hstate hhalt hentry hdone h, fun h => ?_,
      fun d rest h => ?_, ?_⟩⟩
  · obtain ⟨news, u, hnews, hstart, hch, rfl⟩ := exec_issues_start hi h
    have hfamily : (issueStart news order u).rtu.family = u.rtu.family :=
      congrArg Rtu.family (keepsTiming_issueStart hnews.device order u).rtu
    obtain ⟨⟨hrestarted, hcontext, hengine⟩, hnone⟩ := frameUnderWay_issueStart hnews order u c
    rw [hstart, hch, ← hfamily] at hcontext
    rw [hstart] at hengine
    rw [← hfamily] at hrestarted
    refine ⟨fun hquiet => (hnone fun e d hd => hquiet e d (hch e ▸ hd)).2, fun hscaler => ?_, fun x hx => ?_⟩
    · obtain ⟨hnoEngine, hended⟩ := hrestarted hscaler
      exact ⟨Option.map_eq_none_iff.1 hnoEngine, hended⟩
    · obtain ⟨hended, hbegun, hperiod, hnext, hprev, hfam, hv, hh, hformat⟩ := hcontext x hx
      refine ⟨hended, hbegun, hperiod, hnext, hprev, hfam, hv, hh, fun g hg => ?_, fun g hg => ?_⟩
      · exact hengine x (engineView g) hx (congrArg (Option.map engineView) hg)
      · have hread : g = formatAt (s.startNo + 1) (s.ch c).ctl := hg
        rw [hread]
        exact hformat
  · refine ((claimWork_perm order allWork).count_eq w).trans ((count_allWork w).trans ?_)
    cases w <;> rfl
  · refine prefix_claimWork fun w => (hcount w).trans (Nat.le_of_eq (Eq.trans ?_ (count_allWork w).symm))
    cases w <;> rfl
  · subst hidle
    exact exec_loadAbandoned_atStart n m hload hdone
  · exact h.elim takeNext_empty takeNext_full
  · exact (exec_directiveRow_head (s := s.atStart m) h).trans (congrArg Host.Outcome.next (takeNext_atStart c m (m + 1) s))
  · exact ⟨(s.ch c).rep, _, _, _, rfl, rfl, rfl, rfl, reportWork_eq rfl⟩

end Sys2Proof.Machine
end

section
/-! SUPPORT. START (R125), HALT (R131) and SET PARAMETERS (R137, R171), taken by their rows. -/

namespace Sys2Proof.Machine

open Sys2Proof

/-! ### A directive taken and answered -/

/-- The head of the queue taken, as a record of the channel. -/
theorem State.modCh_leaveQueue (s : State) (c : Chan) (rest : List Directive) :
    s.modCh c (leaveQueue rest) = s.setCh c (withTaken rest (s.ch c)) := rfl

/-- The taking of a known directive by its row (R159): it is carried out on the channel that has taken it. -/
theorem exec_directiveRow_takeable {c : Chan} {kind n : Nat} {d : Directive} {rest : List Directive} {s : State}
    (h : Takeable c kind n d rest s) {k : DirKind} (hk : dirKind? (BitVec.ofNat 8 kind) = some k) (hn : argBytes k ≤ n) :
    exec (directiveRow c (some k)) s =
      .next (carryOutKind k c (s.startNo + 1) d (s.setCh c (withTaken rest (s.ch c)))) := by
  obtain ⟨-, hkind, hlen, -, -⟩ := id h
  have hrow : exec (directiveRow c (some k)) s = .next (takeKind c (some k) s) := by cases k <;> rfl
  rw [hrow, takeKind_known h ((dirKind?_of_toNat hkind).trans hk) (Nat.le_trans hn hlen), State.modCh_leaveQueue]

/-- An answer behind a record of its channel. -/
theorem answer_setCh (c : Chan) (tag kind : Byte) (code : AnswerCode) (r : Option Reason) (data : List Byte) (s : State)
    (x : Channel) : answer c tag kind code r data (s.setCh c x) = s.setCh c (withReport (.answer tag kind code r data) x) :=
  State.modCh_setCh s c x _

/-! ### START and HALT -/

/-- Settles O11: START by the channel's state and, from STOPPED, by its family. -/
theorem startResult : Obligations.StartResult := by
  intro c s d rest htake
  refine (exec_directiveRow_takeable htake (k := .start) rfl (Nat.zero_le _)).trans (congrArg Host.Outcome.next ?_)
  have hch : (s.setCh c (withTaken rest (s.ch c))).ch c = withTaken rest (s.ch c) := State.ch_setCh_same ..
  show doStart c d (s.setCh c (withTaken rest (s.ch c))) = _
  unfold doStart
  rw [hch]
  by_cases hstate : (s.ch c).ctl.state = .stopped
  · rw [if_pos hstate]
    refine (if_pos hstate).trans ?_
    by_cases hfamily : familyOf (s.ch c).ctl.format.standard = s.rtu.family
    · rw [if_pos hfamily]
      refine (if_pos hfamily).trans ?_
      rw [State.modCh_setCh]
      exact answer_setCh ..
    · rw [if_neg hfamily]
      exact (if_neg hfamily).trans (answer_setCh ..)
  · rw [if_neg hstate]
    exact (if_neg hstate).trans (answer_setCh ..)

/-- A channel that is neither stopped nor halting enters HALTING (R131). -/
theorem doHalt_enters {c : Chan} {s : State} (h : ¬ ((s.ch c).ctl.state = .stopped ∨ (s.ch c).ctl.state = .halting)) (n : Nat)
    (d : Directive) : doHalt c n d s = s.modCh c (enterHalting n d.tag) := by
  unfold doHalt
  cases hs : (s.ch c).ctl.state with
  | starting | running | lost => rfl
  | stopped => exact absurd (.inl hs) h
  | halting => exact absurd (.inr hs) h

/-- A channel that is stopped or halting has nothing to halt (R131). -/
theorem doHalt_answers {c : Chan} {s : State} (h : (s.ch c).ctl.state = .stopped ∨ (s.ch c).ctl.state = .halting) (n : Nat)
    (d : Directive) : doHalt c n d s = answerDone c d [] s := by
  unfold doHalt
  rcases h with h | h <;> rw [h]

/-- Settles O12: HALT enters HALTING from three states and answers in the other two. -/
theorem haltResult : Obligations.HaltResult := by
  intro c s d rest htake
  refine (exec_directiveRow_takeable htake (k := .halt) rfl (Nat.zero_le _)).trans (congrArg Host.Outcome.next ?_)
  have hstate : ((s.setCh c (withTaken rest (s.ch c))).ch c).ctl.state = (s.ch c).ctl.state := by rw [State.ch_setCh_same]; rfl
  show doHalt c (s.startNo + 1) d (s.setCh c (withTaken rest (s.ch c))) = _
  split
  · next h => exact (doHalt_answers (by rwa [hstate]) _ d).trans (answer_setCh ..)
  · next h => exact (doHalt_enters (by rwa [hstate]) _ d).trans (State.modCh_setCh ..)

/-! ### SET PARAMETERS -/

/-- Free places depend on the length of the report queue, on the halt record and on the load (R160, R161). -/
theorem freePlaces_setCh {c : Chan} {s : State} {x : Channel} (hqueue : x.rep.queue.length = (s.ch c).rep.queue.length)
    (hhalt : x.ctl.halt = (s.ch c).ctl.halt) : (s.setCh c x).freePlaces c = s.freePlaces c := by
  unfold State.freePlaces State.reserved
  rw [State.ch_setCh_same, hqueue, hhalt]
  rfl

/-- The report port behind a delivery of its held status, where there is room for the event (R171). -/
def deliveredPort (x : ReportPort) : ReportPort :=
  { x with
    queue := x.queue ++ [.event (unmaskedKinds x.held x.mask) x.held.first x.held.count]
    held := heldAfterDelivery x.held x.mask }

/-- The held status is delivered when it has unmasked kinds and there is room (R171). -/
theorem deliverHeld_eq (c : Chan) (places : Nat) (s : State) : deliverHeld c places s =
    if unmaskedKinds (s.ch c).rep.held (s.ch c).rep.mask ≠ 0 ∧ places < s.freePlaces c ∧
        eventCount (s.ch c).rep.queue < 6 then
      s.setCh c { s.ch c with rep := deliveredPort (s.ch c).rep }
    else s := by
  unfold deliverHeld State.eventRoom
  simp only [Bool.and_eq_true, decide_eq_true_eq]
  rfl

/-- A kind that the mask change has unmasked is unmasked (R171). -/
theorem unmaskedKinds_of_unmaskedByChange {x : ReportPort} {mask : BitVec 16} (h : unmaskedByChange x mask ≠ 0) :
    unmaskedKinds x.held mask ≠ 0 := by
  intro hnone
  refine h ?_
  unfold unmaskedByChange
  unfold unmaskedKinds at hnone
  rw [BitVec.and_assoc, BitVec.and_comm x.mask, ← BitVec.and_assoc, hnone]
  exact BitVec.zero_and

/-- The report port behind a change of its mask: the held status is delivered where the change unmasks a held kind and
`room` says that the event finds a place beside that of the answer (R171). -/
def remaskedPort (x : ReportPort) (mask : BitVec 16) (room : Prop) [Decidable room] : ReportPort :=
  if unmaskedByChange x mask ≠ 0 ∧ room then deliveredPort { x with mask := mask } else { x with mask := mask }

/-- SET PARAMETERS with a payload that gives parameters (R137, R171). -/
theorem doSetParameters_some {c : Chan} {n : Nat} {d : Directive} {s : State} {f : FieldParams} {fr : FrameParams}
    {mask : BitVec 16} (h : parametersOf? d.payload = some (f, fr, mask)) : doSetParameters c n d s =
      answerDone c d [] (s.setCh c { storeParameters n f fr mask (s.ch c) with
        rep := remaskedPort (s.ch c).rep mask (1 < s.freePlaces c ∧ eventCount (s.ch c).rep.queue < 6) }) := by
  have hplaces : (s.setCh c (storeParameters n f fr mask (s.ch c))).freePlaces c = s.freePlaces c := freePlaces_setCh rfl rfl
  unfold doSetParameters remaskedPort
  rw [h]
  dsimp only
  rw [State.modCh_eq]
  by_cases hunmasked : unmaskedByChange (s.ch c).rep mask ≠ 0
  · rw [if_pos hunmasked, deliverHeld_eq, State.ch_setCh_same, hplaces]
    by_cases hroom : 1 < s.freePlaces c ∧ eventCount (s.ch c).rep.queue < 6
    · rw [if_pos ⟨unmaskedKinds_of_unmaskedByChange (x := (s.ch c).rep) hunmasked, hroom⟩, if_pos ⟨hunmasked, hroom⟩,
        State.setCh_setCh]
      rfl
    · rw [if_neg fun hc => hroom hc.2, if_neg fun hc => hroom hc.2]
      rfl
  · rw [if_neg hunmasked, if_neg fun hc => hunmasked hc.1]
    rfl

/-- Settles O9: the values stored, and the delivery that the new mask allows beside the place of the answer. -/
theorem setParametersResult : Obligations.SetParametersResult := by
  intro c s d rest htake
  have hexec : exec (.setParameters c) s =
      .next (doSetParameters c (s.startNo + 1) d (s.setCh c (withTaken rest (s.ch c)))) :=
    exec_directiveRow_takeable htake (k := .setParameters) rfl (Nat.le_refl 15)
  rw [hexec]
  refine ⟨fun hnone => ?_, fun f fr mask hsome => ⟨_, ?_, rfl⟩⟩
  · unfold doSetParameters
    rw [hnone]
    exact congrArg Host.Outcome.next (answer_setCh ..)
  · have hplaces : (s.setCh c (withTaken rest (s.ch c))).freePlaces c = s.freePlaces c := freePlaces_setCh rfl rfl
    rw [doSetParameters_some hsome, hplaces, State.ch_setCh_same, State.setCh_setCh]
    exact congrArg Host.Outcome.next (answer_setCh ..)

end Sys2Proof.Machine
end

section
/-! SUPPORT. The entry to STOPPED by its own row, ahead of its output frame start (R132; log entry 2). -/

namespace Sys2Proof.Machine

open Sys2Proof

/-- What HALTING leaves of a channel at its end: STOPPED, without ring, tracker and frame, the deferred answer in its place (R28,
R44, R82, R132, R161). -/
def haltedChannel (tag : Byte) (stats : Stats) (ch : Channel) : Channel :=
  { ch with
    recv := { ch.recv with accepted := false, assembly := [], buffer := [] }
    ring := [], cad := ⟨.search none, [], none, []⟩, engine := none, stats := stats
    ctl := { ch.ctl with state := .stopped, lastOutput := none, halt := none }
    rep := { ch.rep with queue := ch.rep.queue ++ [.answer tag 5 .done none []] } }

/-- The end of HALTING as a record of its channel, beside the read that it may orphan (R52). -/
theorem completeHalt_eq_setCh (c : Chan) (tag : Byte) (s : State) : ∃ stats burst, completeHalt c tag s =
    { s.setCh c (haltedChannel tag stats (s.ch c)) with arbiter := { s.arbiter with burst := burst } } := by
  obtain ⟨stats, track, burst, hended⟩ := endFrame_eq c s
  have hch := (congrArg (State.ch · c) hended).trans (State.ch_setCh_same s c _)
  have hset : ∀ y a, ({ (endFrame c s).setCh c y with arbiter := a } : State) = { s.setCh c y with arbiter := a } :=
    fun y a => by rw [hended]; exact State.setCh_setCh_arbiter s c _ y _ a
  refine ⟨stats, ReadOrphaned c true false (endFrame c s).arbiter.burst, (completeHalt_eq c tag s).trans ?_⟩
  rw [hset, hch]
  rfl

/-- HALT_COMPLETE for a HALT taken at an earlier output frame start (R132): what it leaves of its channel, and all else but the
arbiter. -/
theorem exec_haltComplete {c : Chan} {s : State} {r : HaltRecord} (hstate : (s.ch c).ctl.state = .halting)
    (hhalt : (s.ch c).ctl.halt = some r) (hentry : r.entry ≤ s.startNo) (hdone : (s.ch c).haltDone = false) :
    ∃ t stats, exec (.haltComplete c) s = .next t ∧
      t.ch c = withHaltDone (haltedChannel r.tag stats (frameValuesInForce (s.startNo + 1) (s.ch c))) ∧
      (∀ e, e ≠ c → t.ch e = s.ch e) ∧ KeepsDevice s t := by
  obtain ⟨stats, burst, hend⟩ := completeHalt_eq_setCh c r.tag (s.modCh c (frameValuesInForce (s.startNo + 1)))
  have hrow : exec (.haltComplete c) s =
      .next ((completeHalt c r.tag (s.modCh c (frameValuesInForce (s.startNo + 1)))).modCh c withHaltDone) := by
    show execHaltComplete c s = _
    unfold execHaltComplete
    rw [hstate, hhalt]
    exact if_pos ⟨Nat.lt_succ_of_le hentry, hdone⟩
  rw [hend, State.modCh_setCh_arbiter, State.ch_modCh_same, State.modCh_eq, State.setCh_setCh] at hrow
  exact ⟨_, stats, hrow, State.ch_setCh_same s c _, fun e he => State.ch_setCh_ne s he _, rfl⟩

/-- HALT_COMPLETE completes nothing outside HALTING, a second time, or ahead of the HALT's next output frame start. -/
theorem exec_haltComplete_idle {c : Chan} {s : State} (h : (s.ch c).ctl.state ≠ .halting ∨ (s.ch c).haltDone = true ∨
    ∀ r, (s.ch c).ctl.halt = some r → s.startNo < r.entry) : exec (.haltComplete c) s = .next s := by
  show execHaltComplete c s = _
  unfold execHaltComplete
  split
  · next r hstate hhalt =>
    refine if_neg fun ⟨hentry, hdone⟩ => ?_
    rcases h with h | h | h
    · exact h hstate
    · rw [hdone] at h
      cases h
    · exact Nat.not_lt_of_le (Nat.le_of_lt_succ hentry) (h r hhalt)
  · rfl

/-- Frame values stored at or before output frame start `n` come into force at the next one; nothing else differs (R138). -/
theorem frameValuesInForce_succ (n : Nat) (ch : Channel) : ∃ frame pending,
    frameValuesInForce (n + 1) ch = { ch with ctl := { ch.ctl with frame := frame, pendingFrame := pending } } ∧
    (frame, pending) = (match ch.ctl.pendingFrame with
      | some (p, m) => if m ≤ n then (p, none) else (ch.ctl.frame, ch.ctl.pendingFrame)
      | none => (ch.ctl.frame, none)) := by
  unfold frameValuesInForce
  cases h : ch.ctl.pendingFrame with
  | none => exact ⟨ch.ctl.frame, none, show ch = _ by rw [← h], rfl⟩
  | some x =>
    obtain ⟨p, m⟩ := x
    by_cases hm : m ≤ n
    · exact ⟨p, none, if_pos (Nat.lt_succ_of_le hm), (if_pos hm).symm⟩
    · exact ⟨ch.ctl.frame, some (p, m), (if_neg fun hlt => hm (Nat.le_of_lt_succ hlt)).trans (by rw [← h]), (if_neg hm).symm⟩

/-- Settles O46: the entry to STOPPED ahead of the output frame start, and the idling where none is due. -/
theorem haltCompleteResult : Obligations.HaltCompleteResult := by
  intro c s
  refine ⟨fun r hstate hhalt hentry hdone => ?_, exec_haltComplete_idle⟩
  obtain ⟨t, stats, hexec, hch, hothers, hdevice⟩ := exec_haltComplete hstate hhalt hentry hdone
  obtain ⟨frame, pending, hvalues, hframe⟩ := frameValuesInForce_succ s.startNo (s.ch c)
  rw [hvalues] at hch
  have hplaces : t.freePlaces c = s.freePlaces c := by
    unfold State.freePlaces State.reserved
    rw [hch, hdevice.loader, hhalt]
    simp [withHaltDone, haltedChannel]
    omega
  refine ⟨t, hexec, ?_⟩
  rw [hch]
  exact ⟨rfl, rfl, ⟨rfl, rfl, rfl, rfl⟩, rfl, rfl, rfl, rfl, rfl, rfl, rfl, rfl, rfl, rfl, rfl, rfl, rfl, hframe, rfl, rfl,
    hplaces, hothers, hdevice.dram, hdevice.tables, hdevice.loader, hdevice.rtu⟩

end Sys2Proof.Machine
end

section
/-! SUPPORT. RESET CHANNEL, taken by its row (R139, R152, R161, R174, R177). -/

namespace Sys2Proof.Machine

open Sys2Proof

/-! ### The answers it aborts -/

/-- Reports at the end of a channel's report queue, in order. -/
def withReports (rs : List Report) (ch : Channel) : Channel :=
  { ch with rep := { ch.rep with queue := ch.rep.queue ++ rs } }

theorem withReports_nil (ch : Channel) : withReports [] ch = ch := by
  unfold withReports
  rw [List.append_nil]

/-- With no report to append the channel stands. -/
theorem State.modCh_withReports_nil (s : State) (c : Chan) : s.modCh c (withReports []) = s :=
  (congrArg (s.setCh c) (withReports_nil (s.ch c))).trans (State.setCh_ch c s)

theorem withReports_withReports (rs qs : List Report) (ch : Channel) :
    withReports qs (withReports rs ch) = withReports (rs ++ qs) ch := by
  unfold withReports
  simp only [List.append_assoc]

/-- The answer that a channel owes to its HALT, aborted (R139, R161). -/
def abortedHalt : Option HaltRecord → List Report
  | some r => [.answer r.tag 5 .aborted none []]
  | none   => []

/-- The answer that the load owes to channel `c`, aborted (R152, R161). -/
def abortedCommit (c : Chan) : LoadState → List Report
  | .commitPending owner _ tag _ => if owner = c then [.answer tag 18 .aborted none []] else []
  | _ => []

/-- The deferred answers aborted, ahead of the answer of the RESET CHANNEL itself (R161). -/
def resetAnswers (c : Chan) (r : Option HaltRecord) (l : LoadState) (d : Directive) : List Report :=
  abortedHalt r ++ abortedCommit c l ++ [.answer d.tag d.kind .done none []]

theorem abortHalt_eq (c : Chan) (r : Option HaltRecord) (s : State) :
    abortHalt c r s = s.modCh c (withReports (abortedHalt r)) := by
  cases r with
  | none => exact (s.modCh_withReports_nil c).symm
  | some x => rfl

theorem abortCommit_eq (c : Chan) (l : LoadState) (s : State) :
    abortCommit c l s = s.modCh c (withReports (abortedCommit c l)) := by
  cases l with
  | idle => exact (s.modCh_withReports_nil c).symm
  | loading owner e received idleCount => exact (s.modCh_withReports_nil c).symm
  | commitPending owner e tag start =>
    unfold abortCommit abortedCommit
    dsimp only
    split
    · rfl
    · exact (s.modCh_withReports_nil c).symm

/-- The answers of a RESET CHANNEL, in the order of R161. -/
theorem answers_reset (c : Chan) (r : Option HaltRecord) (l : LoadState) (d : Directive) (s : State) :
    answerDone c d [] (abortCommit c l (abortHalt c r s)) = s.modCh c (withReports (resetAnswers c r l d)) := by
  show ((abortCommit c l (abortHalt c r s)).modCh c (withReports [.answer d.tag d.kind .done none []])) = _
  rw [abortCommit_eq, abortHalt_eq, State.modCh_modCh, State.modCh_modCh]
  simp only [withReports_withReports]
  rfl

/-! ### The channel and its frame -/

/-- What a channel reset leaves of its channel (R29, R46, R82, R89, R139, R140, R173, R177). -/
def resetChannelOf (ch : Channel) : Channel :=
  { ch with
    recv := Receiver.reset, fieldCount := 0, ring := [], cad := Cadence.clear, engine := none, stats := zeroStats
    scaler := if ch.engine = none then ch.scaler else ch.scaler.map (fun x => { x with abandoned := true })
    ctl := restartControl ch.ctl
    rep := { ch.rep with held := emptyHeld } }

/-- The frame abandoned, the ring flushed and the channel reset: the same as at the end of a loss, but for the channel's context,
of which R140 gives the state and the last output field (R46, R52, R89). -/
theorem resetChannelPart_eq (c : Chan) (s : State) : (flushRing c (abandonFrame c s)).modCh c resetChannelPart =
    { s.setCh c (resetChannelOf (s.ch c)) with
      arbiter := { s.arbiter with burst := ReadOrphaned c (decide ((s.ch c).engine = none)) false s.arbiter.burst } } := by
  have hlost : (flushRing c (abandonFrame c s)).modCh c resetChannelPart = (lostToStarting c s).modCh c resetChannelPart := by
    unfold lostToStarting
    rw [State.modCh_modCh]
    rfl
  rw [hlost, lostToStarting_eq, State.modCh_setCh_arbiter]
  rfl

/-! ### The event of an abandoned load -/

/-- The report port behind an event of kind `k` raised on an empty held status, with no place reserved (R166, R170). -/
def raisedPort (k : EventKind) (n : Nat) (x : ReportPort) : ReportPort :=
  if hasKind x.mask k = false ∧ x.queue.length < 8 ∧ eventCount x.queue < 6 then
    { x with queue := x.queue ++ [.event (kindSet k) n 1] }
  else { x with held := ⟨kindSet k, n, 1⟩ }

theorem raise_emptyHeld {c : Chan} {s : State} (hheld : (s.ch c).rep.held = emptyHeld) (hreserved : s.reserved c = 0)
    (k : EventKind) (n : Nat) : raise c k n s = s.modCh c (fun ch => { ch with rep := raisedPort k n ch.rep }) := by
  have hroom : hasKind (s.ch c).rep.mask k = false ∧ (s.ch c).rep.held.kinds = 0 ∧ s.eventRoom c 0 = true ↔
      hasKind (s.ch c).rep.mask k = false ∧ (s.ch c).rep.queue.length < 8 ∧ eventCount (s.ch c).rep.queue < 6 := by
    unfold State.eventRoom State.freePlaces
    rw [hheld, hreserved]
    simp [emptyHeld]
  have hjoined : joinHeld (s.ch c).rep.held k n = ⟨kindSet k, n, 1⟩ := by
    rw [hheld]
    simp [joinHeld, emptyHeld]
  unfold raise
  simp only [hroom, State.modCh_eq, raisedPort]
  split
  · rfl
  · rw [hjoined]

/-! ### The whole directive -/

theorem ownsLoad_iff (c : Chan) (l : LoadState) :
    ownsLoad c l = true ↔ (∃ e n m, l = .loading c e n m) ∨ ∃ e tag n, l = .commitPending c e tag n := by
  cases l <;> simp [ownsLoad]

/-- The report port after a RESET CHANNEL with `answers`, of an owner of the load or not (R152, R161, R177). -/
def resetPort (owned : Bool) (answers : List Report) (x : ReportPort) : ReportPort :=
  let answered := { x with queue := x.queue ++ answers, held := emptyHeld }
  if owned then raisedPort .loadAbandoned 0 answered else answered

/-- A change of the channel behind a record of it and the items of the device that a channel reset reaches. -/
theorem State.modCh_setCh_reset (s : State) (c : Chan) (x : Channel) (a : Arbiter) (p : Probe) (l : LoadState) (sh : List Byte)
    (f : Channel → Channel) :
    ({ s.setCh c x with arbiter := a, probe := p, loader := l, shadow := sh } : State).modCh c f =
      { s.setCh c (f x) with arbiter := a, probe := p, loader := l, shadow := sh } :=
  congrArg (fun t : State => { t with arbiter := a, probe := p, loader := l, shadow := sh }) (State.modCh_setCh s c x f)

/-- All that a RESET CHANNEL does (R139). -/
theorem doResetChannel_eq (c : Chan) (d : Directive) (s : State) : doResetChannel c d s =
    { s.setCh c { resetChannelOf (s.ch c) with
        rep := resetPort (ownsLoad c s.loader) (resetAnswers c (s.ch c).ctl.halt s.loader d) (s.ch c).rep } with
      arbiter := { s.arbiter with burst := ReadOrphaned c (decide ((s.ch c).engine = none)) false s.arbiter.burst }
      probe := probeAfterReset c s.probe
      loader := if ownsLoad c s.loader then .idle else s.loader
      shadow := if ownsLoad c s.loader then [] else s.shadow } := by
  unfold doResetChannel
  rw [resetChannelPart_eq]
  dsimp only
  rw [answers_reset, State.modCh_setCh_reset]
  cases hown : ownsLoad c s.loader with
  | false => rfl
  | true =>
    have hch : ∀ x a p l sh, ({ s.setCh c x with arbiter := a, probe := p, loader := l, shadow := sh } : State).ch c = x :=
      fun x _ _ _ _ => State.ch_setCh_same s c x
    rw [if_pos rfl, hch, raise_emptyHeld (by rw [hch]; rfl) (by unfold State.reserved; rw [hch]; rfl), State.modCh_setCh_reset]
    rfl

/-- RESET CHANNEL taken by its row: what it leaves of its channel, and all else. -/
theorem exec_resetChannel {c : Chan} {s : State} {d : Directive} {rest : List Directive} (h : Takeable c 6 0 d rest s) :
    ∃ t, exec (.resetChannel c) s = .next t ∧
      t.ch c = { resetChannelOf (withTaken rest (s.ch c)) with
        rep := resetPort (ownsLoad c s.loader) (resetAnswers c (s.ch c).ctl.halt s.loader d) (s.ch c).rep } ∧
      (∀ e, e ≠ c → t.ch e = s.ch e) ∧
      t = { s with
        chans := t.chans
        arbiter := { s.arbiter with burst := ReadOrphaned c (decide ((s.ch c).engine = none)) false s.arbiter.burst }
        probe := probeAfterReset c s.probe
        loader := if ownsLoad c s.loader then .idle else s.loader
        shadow := if ownsLoad c s.loader then [] else s.shadow } := by
  have hrow : exec (.resetChannel c) s = .next (doResetChannel c d (s.setCh c (withTaken rest (s.ch c)))) :=
    exec_directiveRow_takeable h (k := .resetChannel) rfl (Nat.zero_le _)
  rw [doResetChannel_eq, State.ch_setCh_same, State.setCh_setCh] at hrow
  exact ⟨_, hrow, State.ch_setCh_same s c _, fun e he => State.ch_setCh_ne s he _, rfl⟩

theorem channelStopped_resetChannelOf (ch : Channel) (rep : ReportPort) :
    ChannelStopped { resetChannelOf ch with rep := rep } :=
  ⟨⟨rfl, rfl, rfl, rfl, rfl, rfl, rfl, rfl, rfl⟩, rfl, rfl, ⟨rfl, rfl, rfl, rfl⟩, rfl, rfl, rfl, rfl, rfl, rfl,
    statsCleared_zeroStats⟩

/-- A channel reset reaches neither the window list nor the event mask (R139, R177). -/
theorem resetPort_keeps (owned : Bool) (answers : List Report) (x : ReportPort) :
    (resetPort owned answers x).window = x.window ∧ (resetPort owned answers x).mask = x.mask := by
  unfold resetPort raisedPort
  dsimp only
  split
  · split <;> exact ⟨rfl, rfl⟩
  · exact ⟨rfl, rfl⟩

/-- Report queue and held status after a RESET CHANNEL: of an owner of the load, LOAD_ABANDONED is behind the answers, or held. -/
theorem resetPort_reports (owned : Bool) (answers : List Report) (x : ReportPort) {queue : List Report}
    (hqueue : x.queue ++ answers = queue) :
    if owned = true then
      if x.mask.getLsbD 13 = false ∧ queue.length < 8 ∧ eventCount queue < 6 then
        (resetPort owned answers x).queue = queue ++ [.event (BitVec.ofNat 16 (2 ^ 13)) 0 1] ∧
          (resetPort owned answers x).held = ⟨0, 0, 0⟩
      else (resetPort owned answers x).queue = queue ∧
        (resetPort owned answers x).held = ⟨BitVec.ofNat 16 (2 ^ 13), 0, 1⟩
    else (resetPort owned answers x).queue = queue ∧ (resetPort owned answers x).held = ⟨0, 0, 0⟩ := by
  subst hqueue
  cases owned with
  | false => exact ⟨rfl, rfl⟩
  | true =>
    rw [if_pos rfl]
    split
    · next hroom =>
      have hport : resetPort true answers x = { x with
          queue := x.queue ++ answers ++ [.event (kindSet .loadAbandoned) 0 1], held := emptyHeld } := if_pos hroom
      rw [hport]
      exact ⟨rfl, rfl⟩
    · next hroom =>
      have hport : resetPort true answers x = { x with
          queue := x.queue ++ answers, held := ⟨kindSet .loadAbandoned, 0, 1⟩ } := if_neg hroom
      rw [hport]
      exact ⟨rfl, rfl⟩

/-- The LOAD COMMIT answer aborted is that of an owner whose load is committed. -/
theorem abortedCommit_cases (c : Chan) (l : LoadState) :
    (∃ e tag n, l = .commitPending c e tag n ∧ abortedCommit c l = [.answer tag 18 .aborted none []]) ∨
      ((¬ ∃ e tag n, l = .commitPending c e tag n) ∧ abortedCommit c l = []) := by
  cases l with
  | idle => exact .inr ⟨by simp, rfl⟩
  | loading owner e received idleCount => exact .inr ⟨by simp, rfl⟩
  | commitPending owner e tag start =>
    by_cases h : owner = c
    · subst h
      exact .inl ⟨e, tag, start, rfl, if_pos rfl⟩
    · exact .inr ⟨by simp [h], if_neg h⟩

/-- Settles O13: the abandoned frame, and the reset as a record of the channel beside the items of the device it reaches. -/
theorem resetChannelResult : Obligations.ResetChannelResult := by
  refine ⟨fun c s => ⟨abandonFrame_none, fun f => abandonFrame_some⟩, fun c s d rest htake owned howned => ?_⟩
  obtain rfl : owned = ownsLoad c s.loader := Bool.eq_iff_iff.2 (howned.trans (ownsLoad_iff c s.loader).symm)
  obtain ⟨t, hexec, hch, hothers, ht⟩ := exec_resetChannel htake
  obtain ⟨hwindow, hmask⟩ := resetPort_keeps (ownsLoad c s.loader) (resetAnswers c (s.ch c).ctl.halt s.loader d) (s.ch c).rep
  have hprobe : probeAfterReset c s.probe = (match s.probe with
      | .armed arm => if arm.chan = c then .idle else .armed arm | p => p) := by
    cases s.probe <;> rfl
  have hqueue : (s.ch c).rep.queue ++ resetAnswers c (s.ch c).ctl.halt s.loader d =
      (s.ch c).rep.queue ++ abortedHalt (s.ch c).ctl.halt ++ abortedCommit c s.loader ++ [.answer d.tag d.kind .done none []] := by
    unfold resetAnswers
    simp only [List.append_assoc]
  refine ⟨t, abortedHalt (s.ch c).ctl.halt, abortedCommit c s.loader, hexec, ?_⟩
  rw [hch]
  exact ⟨channelStopped_resetChannelOf .., rfl, rfl, rfl, rfl, hwindow, hmask, rfl, rfl, by rw [ht], rfl,
    abortedCommit_cases c s.loader, resetPort_reports _ _ _ hqueue, by rw [ht], by rw [ht], by rw [ht]; exact hprobe, hothers,
    by rw [ht], by rw [ht], by rw [ht], by rw [ht], by rw [ht], by rw [ht]⟩

end Sys2Proof.Machine
end

section
/-! SUPPORT. What can become of the active tables, the load and its shadow (R141, R145 to R152, R165), said once: the moves of a
load, that each keeps them sound, and that every command makes moves alone. -/

namespace Sys2Proof.Machine

open Sys2Proof

/-! ### The moves of a load -/

/-- The active tables, the load state and the shadow of a state. -/
def loadOf (s : State) : Tables × LoadState × List Byte := (s.tables, s.loader, s.shadow)

/-- What can become of tables, load and shadow: they stand, or the load ends without a swap (R148, R151, R152, R165), opens
(R146), takes a segment (R147), counts an output frame start (R152), is committed (R148) or swaps (R150), or the part is reset (R142). -/
inductive LoadMove : Tables × LoadState × List Byte → Tables × LoadState × List Byte → Prop
  | stands (x) : LoadMove x x
  | ends (t l sh) : LoadMove (t, l, sh) (t, .idle, [])
  | opens (t sh c e) (hwritable : readOnlyEntry e = false) : LoadMove (t, .idle, sh) (t, .loading c e 0 0, [])
  | takes (t sh c e got n) (data : List Byte) (hfits : got + data.length ≤ entrySize e) :
      LoadMove (t, .loading c e got n, sh) (t, .loading c e (got + data.length) 0, sh ++ data)
  | counts (t sh c e got n) (hbelow : n + 1 < 100) : LoadMove (t, .loading c e got n, sh) (t, .loading c e got (n + 1), sh)
  | commits (t sh c e got n tag start) (hcomplete : entrySize e ≤ got) (hvalid : faultOffset e sh = none) :
      LoadMove (t, .loading c e got n, sh) (t, .commitPending c e tag start, sh)
  | swaps (t sh c e tag start) : LoadMove (t, .commitPending c e tag start, sh) (setTableImage t e sh, .idle, [])
  | resets (x) : LoadMove x (builtinTables, .idle, [])

/-- Tables and load in agreement, as `LoaderSound` asks of a state. -/
def SoundLoad (x : Tables × LoadState × List Byte) : Prop := TablesSound x.1 ∧ LoadSound x.2.1 x.2.2

theorem loaderSound_iff (s : State) : LoaderSound s ↔ SoundLoad (loadOf s) := Iff.rfl

/-- An image without a fault offset has no fault (R149). -/
theorem imageFaults_of_faultOffset {e : TableEntry} {image : List Byte} (h : faultOffset e image = none) :
    imageFaults e image = [] := List.min?_eq_none_iff.1 h

/-- A swap of a valid image into an entry that is not built in keeps the tables sound (R141, R142, R150). -/
theorem tablesSound_setTableImage {t : Tables} {e : TableEntry} {image : List Byte} (h : TablesSound t)
    (hwritable : readOnlyEntry e = false) (hvalid : entryValid e image = true) : TablesSound (setTableImage t e image) := by
  obtain ⟨hentries, hbuiltin⟩ := h
  refine ⟨fun x => ?_, fun x hx => ?_⟩
  · rw [tableImage_setTableImage]
    split
    · next hxe => rw [hxe]; exact hvalid
    · exact hentries x
  · have hne : x ≠ e := by
      rintro rfl
      exact absurd hx (by rw [hwritable]; exact Bool.false_ne_true)
    rw [tableImage_setTableImage, if_neg hne]
    exact hbuiltin x hx

/-- Every move keeps tables and load sound. -/
theorem LoadMove.sound {x y : Tables × LoadState × List Byte} (h : LoadMove x y) (hx : SoundLoad x) : SoundLoad y := by
  obtain ⟨htables, hload⟩ := hx
  cases h with
  | stands => exact ⟨htables, hload⟩
  | ends => exact ⟨htables, rfl⟩
  | opens t sh c e hwritable => exact ⟨htables, hwritable, rfl, Nat.zero_le _, by decide⟩
  | takes t sh c e got n data hfits =>
    obtain ⟨hwritable, hgot, -, -⟩ := hload
    refine ⟨htables, hwritable, ?_, hfits, by decide⟩
    show got + data.length = (sh ++ data).length
    rw [List.length_append, ← hgot]
  | counts t sh c e got n hbelow =>
    obtain ⟨hwritable, hgot, hfits, -⟩ := hload
    exact ⟨htables, hwritable, hgot, hfits, hbelow⟩
  | commits t sh c e got n tag start hcomplete hvalid =>
    obtain ⟨hwritable, hgot, hfits, -⟩ := hload
    have hsize : sh.length = entrySize e := hgot.symm.trans (Nat.le_antisymm hfits hcomplete)
    exact ⟨htables, hwritable, entryValid_of hsize (imageFaults_of_faultOffset hvalid)⟩
  | swaps t sh c e tag start =>
    obtain ⟨hwritable, hvalid⟩ := hload
    exact ⟨tablesSound_setTableImage htables hwritable hvalid, rfl⟩
  | resets => exact ⟨tablesSound_builtinTables, rfl⟩

theorem KeepsDevice.load_eq {s t : State} (h : KeepsDevice s t) : loadOf t = loadOf s := by
  unfold loadOf
  rw [h.tables, h.loader, h.shadow]

theorem loadMove_of_eq {s t : State} (h : loadOf t = loadOf s) : LoadMove (loadOf s) (loadOf t) := by
  rw [h]
  exact .stands _

theorem KeepsDevice.loadMove {s t : State} (h : KeepsDevice s t) : LoadMove (loadOf s) (loadOf t) :=
  loadMove_of_eq h.load_eq

/-! ### Directives -/

section

variable (c : Chan) (s : State) (n : Nat) (d : Directive)

/-- The directives to a channel other than RESET CHANNEL leave the load. -/
theorem loadOf_channelDirectives :
    loadOf (doProbe c d s) = loadOf s ∧ loadOf (doSetFormat c n d s) = loadOf s ∧
    loadOf (doSetParameters c n d s) = loadOf s ∧ loadOf (doStart c d s) = loadOf s ∧ loadOf (doHalt c n d s) = loadOf s ∧
    loadOf (doReadStats c d s) = loadOf s := by
  refine ⟨rfl, ?_, ?_, ?_, ?_, ?_⟩
  · unfold doSetFormat
    split <;> rfl
  · unfold doSetParameters
    split
    · rfl
    · dsimp only
      split
      · exact (keepsDevice_deliverHeld c _ _).load_eq
      · rfl
  · unfold doStart
    split
    · split <;> rfl
    · rfl
  · unfold doHalt
    split <;> rfl
  · unfold doReadStats
    split <;> rfl

/-- The directives to the device other than RESTART DEVICE, and READ TABLE, leave the load. -/
theorem loadOf_deviceDirectives :
    loadOf (doDeviceStatus c d s) = loadOf s ∧ loadOf (doClearErrors c d s) = loadOf s ∧
    loadOf (doSetDeviceOptions c d s) = loadOf s ∧ loadOf (doArmProbe c d s) = loadOf s ∧
    loadOf (doReadProbe c d s) = loadOf s ∧ loadOf (doReadTable c d s) = loadOf s := by
  refine ⟨rfl, rfl, ?_, ?_, rfl, ?_⟩
  · unfold doSetDeviceOptions
    split <;> rfl
  · unfold doArmProbe
    split
    · rfl
    · split <;> rfl
  · unfold doReadTable
    split
    · rfl
    · dsimp only
      split <;> rfl

theorem loadMove_doLoadBegin : LoadMove (loadOf s) (loadOf (doLoadBegin c d s)) := by
  unfold doLoadBegin
  split
  · exact .stands _
  · next e hload _ =>
    split
    · exact .stands _
    · next hwritable =>
      show LoadMove (s.tables, s.loader, s.shadow) _
      rw [hload]
      exact .opens _ _ _ _ (Bool.eq_false_of_not_eq_true hwritable)
  · exact .stands _
  · exact .stands _

theorem loadMove_doLoadSegment : LoadMove (loadOf s) (loadOf (doLoadSegment c d s)) := by
  unfold doLoadSegment
  split
  · exact .stands _
  · exact .stands _
  · next owner e got _ hload =>
    dsimp only
    split
    · exact .stands _
    · split
      · next hsequence =>
        show LoadMove (s.tables, s.loader, s.shadow) _
        rw [hload]
        exact .takes _ _ _ _ _ _ _ hsequence.2
      · exact .stands _

theorem loadMove_doLoadCommit : LoadMove (loadOf s) (loadOf (doLoadCommit c n d s)) := by
  unfold doLoadCommit
  split
  · exact .stands _
  · exact .stands _
  · next owner e got _ hload =>
    split
    · exact .stands _
    · split
      · exact .stands _
      · next hcomplete =>
        split
        · exact .ends _ _ _
        · next hvalid =>
          show LoadMove (s.tables, s.loader, s.shadow) _
          rw [hload]
          exact .commits _ _ _ _ _ _ _ _ (Nat.le_of_not_lt hcomplete) hvalid

theorem loadMove_doLoadAbort : LoadMove (loadOf s) (loadOf (doLoadAbort c d s)) := by
  unfold doLoadAbort
  split
  · exact .stands _
  · exact .stands _
  · split
    · exact .ends _ _ _
    · exact .stands _

/-- RESET CHANNEL ends the load of its channel (R152). -/
theorem loadMove_doResetChannel : LoadMove (loadOf s) (loadOf (doResetChannel c d s)) := by
  rw [doResetChannel_eq]
  cases ownsLoad c s.loader with
  | false => exact .stands _
  | true => exact .ends _ _ _

/-- RESTART DEVICE ends the load and keeps the tables (R142, R154, R165). -/
theorem loadMove_deviceRestart : LoadMove (loadOf s) (loadOf (deviceRestart s)) := by
  have hload : loadOf (deviceRestart s) = (s.tables, .idle, []) := by
    unfold loadOf
    rw [(deviceRestart_keeps s).2]
    rfl
  rw [hload]
  exact .ends _ _ _

theorem loadMove_carryOutKind (k : DirKind) : LoadMove (loadOf s) (loadOf (carryOutKind k c n d s)) := by
  obtain ⟨hprobe, hformat, hparams, hstart, hhalt, hstats⟩ := loadOf_channelDirectives c s n d
  obtain ⟨hstatus, hclear, hoptions, harm, hread, htable⟩ := loadOf_deviceDirectives c s d
  cases k with
  | probe => exact loadMove_of_eq hprobe
  | setFormat => exact loadMove_of_eq hformat
  | setParameters => exact loadMove_of_eq hparams
  | start => exact loadMove_of_eq hstart
  | halt => exact loadMove_of_eq hhalt
  | resetChannel => exact loadMove_doResetChannel c s d
  | readStats => exact loadMove_of_eq hstats
  | loadBegin => exact loadMove_doLoadBegin c s d
  | loadSegment => exact loadMove_doLoadSegment c s d
  | loadCommit => exact loadMove_doLoadCommit c s n d
  | loadAbort => exact loadMove_doLoadAbort c s d
  | readTable => exact loadMove_of_eq htable
  | deviceStatus => exact loadMove_of_eq hstatus
  | clearErrors => exact loadMove_of_eq hclear
  | setDeviceOptions => exact loadMove_of_eq hoptions
  | armProbe => exact loadMove_of_eq harm
  | readProbe => exact loadMove_of_eq hread
  | restartDevice => exact loadMove_deviceRestart s

theorem loadMove_carryOut : LoadMove (loadOf s) (loadOf (carryOut c n d s)) := by
  unfold carryOut
  split
  · exact .stands _
  · split
    · exact .stands _
    · exact loadMove_carryOutKind c s n d _

theorem loadMove_takeNext : LoadMove (loadOf s) (loadOf (takeNext c n s)) := by
  unfold takeNext
  split
  · exact .stands _
  · next d rest _ =>
    split
    · exact .stands _
    · split
      · exact loadMove_carryOut c (s.modCh c (leaveQueue rest)) n d
      · exact .stands _

theorem loadMove_takeKind (k : Option DirKind) : LoadMove (loadOf s) (loadOf (takeKind c k s)) := by
  unfold takeKind
  split
  · exact .stands _
  · split
    · exact loadMove_takeNext c s _
    · exact .stands _

end

/-! ### Output frame starts -/

/-- The load after a swap (R150). -/
theorem loadOf_swapTable (n : Nat) (owner : Chan) (e : TableEntry) (tag : Byte) (s : State) :
    loadOf (swapTable n owner e tag s) = (setTableImage s.tables e s.shadow, .idle, []) := by
  have hhanded := (keepsDevice_eachChan (keepsDevice_handSwap n e s.shadow)
    { s with tables := setTableImage s.tables e s.shadow }).tables
  show ((eachChan (handSwap n e s.shadow) { s with tables := setTableImage s.tables e s.shadow }).tables, _) = _
  rw [hhanded]
  rfl

theorem loadMove_loaderWork (n : Nat) (s : State) : LoadMove (loadOf s) (loadOf (loaderWork n s)) := by
  unfold loaderWork
  split
  · exact .stands _
  · show LoadMove (loadOf s) (loadOf (loaderAdvance n s))
    unfold loaderAdvance
    split
    · exact .stands _
    · next owner e got idleCount hload =>
      split
      · unfold abandonLoad
        rw [(keepsDevice_raise owner _ _ _).load_eq]
        exact .ends _ _ _
      · next hbelow =>
        show LoadMove (s.tables, s.loader, s.shadow) _
        rw [hload]
        exact .counts _ _ _ _ _ _ (Nat.lt_of_not_le hbelow)
    · next owner e tag start hload =>
      split
      · rw [loadOf_swapTable]
        show LoadMove (s.tables, s.loader, s.shadow) _
        rw [hload]
        exact .swaps _ _ _ _ _ _
      · exact .stands _

/-- A piece of work of an output frame start (R120): the loader's and the directives' reach the load. -/
theorem loadMove_doWork {news : State → State} (hnews : ∀ s, KeepsDevice s (news s)) (n : Nat) (s : State) (w : StartWork) :
    LoadMove (loadOf s) (loadOf (doWork news n s w)) := by
  cases w with
  | announce => exact (hnews s).loadMove
  | loader => exact loadMove_loaderWork n s
  | control c => exact (keepsDevice_controlWork c n s).loadMove
  | loss c => exact (keepsDevice_lossWork c s).loadMove
  | report c => exact (keepsDevice_reportWork c s).loadMove
  | packet c => exact loadMove_takeNext c s n

theorem loaderSound_issueStart {news : State → State} (hnews : ∀ s, KeepsDevice s (news s)) (order : List StartWork) {s : State}
    (hs : LoaderSound s) : LoaderSound (issueStart news order s) := by
  have hwork : LoaderSound ((claimWork order allWork).foldl (doWork news (s.startNo + 1))
      { s with startNo := s.startNo + 1, startSeen := true }) :=
    List.foldlRecOn (motive := LoaderSound) _ _ hs fun u hu w _ => (loadMove_doWork hnews _ u w).sound hu
  exact hwork

theorem IssuesStart.loaderSound {s t : State} (h : IssuesStart s t) (hs : LoaderSound s) : LoaderSound t := by
  cases h with
  | pulse dt f order h => exact h ▸ loaderSound_issueStart (keepsDevice_pulseNews s.rtu f) order hs
  | timeout order h => exact h ▸ loaderSound_issueStart (keepsDevice_raiseAll .refLost) order hs
  | expiry order h => exact h ▸ loaderSound_issueStart (news := id) KeepsDevice.refl order hs
  | idle h => exact h ▸ hs

/-! ### Commands -/

/-- A word of a read burst reaches no load (R54 to R58). -/
theorem loadOf_checkWord (c : Chan) (slot : Fin 8) (k field num : Nat) (offer : Bool) (inhibited : Nat → Bool) (s : State)
    (w : Nat) : loadOf (checkWord c slot k field num offer inhibited s w) = loadOf s := by
  have hraised : ∀ (e : EventKind) (f : Channel → Channel), loadOf (raise c e field (s.modCh c f)) = loadOf s := fun e f =>
    (keepsDevice_raise c e field (s.modCh c f)).load_eq
  unfold checkWord
  split
  · rfl
  · split
    · rfl
    · unfold singleWord
      dsimp only
      split <;> exact hraised _ _
    · unfold doubleWord
      dsimp only
      split <;> exact hraised _ _

theorem loadOf_readDelivered (c : Chan) (slot : Fin 8) (k num : Nat) (live present : Bool) (strikes : List Strike)
    (read : List Nat) (s : State) : loadOf (readDelivered c slot k num live present strikes read s) = loadOf s := by
  have hchecked : loadOf (checkLine c slot k num live present read (strikeLine c slot k strikes s)) = loadOf s :=
    List.foldlRecOn (motive := fun u : State => loadOf u = loadOf s) _ _ rfl fun u hu w _ => (loadOf_checkWord ..).trans hu
  unfold readDelivered handLine
  generalize checkLine c slot k num live present read (strikeLine c slot k strikes s) = u at hchecked ⊢
  split <;> exact hchecked

theorem loadOf_execTimingWord {c : Chan} {dt : Nat} {w : TimingWord} {line : LineIn} {s t : State}
    (h : execTimingWord c dt w line s = .next t) : loadOf t = loadOf s := by
  cases h
  exact (keepsDevice_lineStart c w line _).load_eq

theorem loadOf_execControlPacket {c : Chan} {s t : State} (h : execControlPacket c s = .next t) : loadOf t = loadOf s := by
  unfold execControlPacket at h
  split at h <;> cases h
  · rfl
  · exact ((keepsDevice_modCh c _ s).trans (keepsDevice_checkLineOf c _ _)).load_eq

theorem loadOf_execWriteBurstComplete {s t : State} (h : execWriteBurstComplete s = .next t) : loadOf t = loadOf s := by
  unfold execWriteBurstComplete at h
  split at h <;> cases h
  · next c slot k words _ => exact (keepsDevice_burstEnded (writeLine c slot k words s)).load_eq
  · rfl

theorem loadOf_execReadBurstComplete {line : LineRead} {s t : State} (h : execReadBurstComplete line s = .next t) :
    loadOf t = loadOf s := by
  unfold execReadBurstComplete at h
  split at h <;> cases h
  · exact (keepsDevice_pumpEngine _ _).load_eq.trans (loadOf_readDelivered ..)
  · rfl

theorem loadOf_execInputLoss {c : Chan} {s t : State} (h : execInputLoss c s = .next t) : loadOf t = loadOf s := by
  unfold execInputLoss at h
  split at h <;> cases h
  · exact (keepsDevice_lossWork c s).load_eq
  · rfl

theorem loadOf_execHaltComplete {c : Chan} {s t : State} (h : execHaltComplete c s = .next t) : loadOf t = loadOf s := by
  unfold execHaltComplete at h
  split at h
  · split at h <;> cases h
    · exact (((keepsDevice_modCh c _ s).trans (keepsDevice_completeHalt c _ _)).trans (keepsDevice_modCh c _ _)).load_eq
    · rfl
  · cases h; rfl

/-- LOAD_ABANDONED and TABLE_SWAP are the loader's work or nothing. -/
theorem loadMove_loaderRows {s t : State} (h : execLoadAbandoned s = .next t ∨ execTableSwap s = .next t) :
    LoadMove (loadOf s) (loadOf t) := by
  rcases h with h | h
  · unfold execLoadAbandoned at h
    split at h
    · split at h <;> cases h
      · exact loadMove_loaderWork _ s
      · exact .stands _
    · cases h; exact .stands _
  · unfold execTableSwap at h
    split at h
    · split at h <;> cases h
      · exact loadMove_loaderWork _ s
      · exact .stands _
    · cases h; exact .stands _

/-- Every command keeps tables and load sound: it moves the load, leaves it, or issues an output frame start. -/
theorem exec_loaderSound {i : Instr} {s t : State} (hs : LoaderSound s) (h : exec i s = .next t) : LoaderSound t := by
  have hmoved : LoadMove (loadOf s) (loadOf t) → LoaderSound t := fun hmove => hmove.sound hs
  have hleft : loadOf t = loadOf s → LoaderSound t := fun heq => hmoved (loadMove_of_eq heq)
  have htaken : ∀ {c : Chan} {k : Option DirKind},
      (.next (takeKind c k s) : Host.Outcome State Fault Refusal) = .next t → LoaderSound t := fun h => by
    cases h; exact hmoved (loadMove_takeKind _ s _)
  cases i with
  | powerOnReset straps found errs => cases h; exact hmoved (.resets _)
  | pinReset straps => cases h; exact hmoved (.resets _)
  | timingWord c dt w line => exact hleft (loadOf_execTimingWord h)
  | controlPacket c => exact hleft (loadOf_execControlPacket h)
  | writeBurstComplete => exact hleft (loadOf_execWriteBurstComplete h)
  | readBurstComplete line => exact hleft (loadOf_execReadBurstComplete h)
  | outputLinePeriod c => exact hleft (keepsDevice_execOutputLinePeriod h).load_eq
  | referencePulse dt f order => cases h; exact (IssuesStart.pulse dt f order rfl).loaderSound hs
  | refLossTimeout order => exact (issuesStart_execRefLossTimeout h).loaderSound hs
  | freeRunExpiry order => exact (issuesStart_execFreeRunExpiry h).loaderSound hs
  | inputLoss c => exact hleft (loadOf_execInputLoss h)
  | haltComplete c => exact hleft (loadOf_execHaltComplete h)
  | loadAbandoned => exact hmoved (loadMove_loaderRows (.inl h))
  | tableSwap => exact hmoved (loadMove_loaderRows (.inr h))
  | probe c | setFormat c | setParameters c | start c | halt c | resetChannel c | readStats c | loadBegin c
  | loadSegment c | loadCommit c | loadAbort c | readTable c | deviceStatus c | clearErrors c | setDeviceOptions c
  | armProbe c | readProbe c | restartDevice c | unknownKind c => exact htaken h

/-- Settles O55: a step is the front command, and every command keeps tables and load sound. -/
theorem tablesStayValid : Obligations.TablesStayValid := by
  intro s t hs h
  unfold step at h
  split at h
  · cases h; exact hs
  · next i rest _ => exact exec_loaderSound (s := { s with pending := rest }) hs h

end Sys2Proof.Machine
end

section
/-! SUPPORT. The validation of a table image (R143, R144, R149): its list of offsets against the faults of R149, and the lowest of
them. -/

namespace Sys2Proof.Machine

open Sys2Proof

/-! ### Patterns (R143) -/

theorem lengthAllowed_iff (n : Nat) : lengthAllowed n = true ↔ n = 0 ∨ (2 ≤ n ∧ n ≤ 10) := by
  simp [lengthAllowed]

theorem phaseFault_iff (image : List Byte) (ph : Nat) : phaseFault image ph = true ↔
    (ph < patternLength image ∧ (phaseByte image ph % 4 = 0 ∨ phaseByte image ph / 4 % 4 = 0 ∨ 32 ≤ phaseByte image ph)) ∨
    (patternLength image ≤ ph ∧ phaseByte image ph ≠ 0) := by
  unfold phaseFault
  split
  · next h => simp [h, Nat.not_le.2 h, pairCode, repeatCode, or_assoc]
  · next h => simp [h, Nat.not_lt.1 h]

/-- A phase expects ANY twice when its byte ends in four set bits. -/
theorem everyAny_iff (image : List Byte) :
    everyAny image = true ↔ ∀ ph, ph < patternLength image → phaseByte image ph % 16 = 15 := by
  have hphase : ∀ b : Nat, b % 4 = 3 ∧ b / 4 % 4 = 3 ↔ b % 16 = 15 := by omega
  simp [everyAny, pairCode, repeatCode, hphase]

theorem mem_patternFaults (i : Fin 8) (image : List Byte) (o : Nat) :
    o ∈ patternFaults image ↔ FaultAt (.pattern i) image o := by
  have hlength : o ∈ (if lengthAllowed (patternLength image) then [] else [0]) ↔
      o = 0 ∧ patternLength image ≠ 0 ∧ (patternLength image < 2 ∨ 10 < patternLength image) := by
    have hallowed := lengthAllowed_iff (patternLength image)
    split
    · next h =>
      have hlegal := hallowed.1 h
      simp only [List.not_mem_nil, false_iff]
      omega
    · next h =>
      rw [hallowed] at h
      rw [List.mem_singleton]
      omega
  have hphases : o ∈ ((List.range 10).filter (phaseFault image)).map (fun ph => 1 + ph) ↔
      (∃ ph, ph < 10 ∧ o = 1 + ph ∧ ph < patternLength image ∧
        (phaseByte image ph % 4 = 0 ∨ phaseByte image ph / 4 % 4 = 0 ∨ 32 ≤ phaseByte image ph)) ∨
      ∃ ph, ph < 10 ∧ o = 1 + ph ∧ patternLength image ≤ ph ∧ phaseByte image ph ≠ 0 := by
    simp only [List.mem_map, List.mem_filter, List.mem_range, phaseFault_iff, ← exists_or]
    refine exists_congr fun ph => ?_
    omega
  have hany : o ∈ (if 2 ≤ patternLength image ∧ patternLength image ≤ 10 ∧ everyAny image = true then [1] else []) ↔
      o = 1 ∧ 2 ≤ patternLength image ∧ patternLength image ≤ 10 ∧
        ∀ ph, ph < patternLength image → phaseByte image ph % 16 = 15 := by
    rw [← everyAny_iff]
    split
    · next h => simp [h]
    · next h => simp [h]
  unfold patternFaults
  rw [List.mem_append, List.mem_append, hlength, hphases, hany, or_assoc, or_assoc]
  rfl

/-! ### Coefficients and curves (R144) -/

/-- The two bytes of a coefficient as `FaultAt` reads them. -/
theorem signed16_eq (lo hi : Nat) : signed16 lo hi =
    if lo + 256 * hi < 32768 then ((lo + 256 * hi : Nat) : Int) else ((lo + 256 * hi : Nat) : Int) - 65536 := by
  unfold signed16
  dsimp only
  push_cast
  split <;> split <;> omega

theorem mem_coefFaults (i : Fin 4) (image : List Byte) (o : Nat) : o ∈ coefFaults image ↔ FaultAt (.coef i) image o := by
  have hvalue : ∀ n, coefValue image n = if byteAt image (2 * n) + 256 * byteAt image (2 * n + 1) < 32768 then
      ((byteAt image (2 * n) + 256 * byteAt image (2 * n + 1) : Nat) : Int)
      else ((byteAt image (2 * n) + 256 * byteAt image (2 * n + 1) : Nat) : Int) - 65536 := fun n => signed16_eq _ _
  have hrange : o ∈ ((List.range 256).filter (fun n => coefOutOfRange (coefValue image n))).map (fun n => 2 * n) ↔
      ∃ n, n < 256 ∧ o = 2 * n ∧ (coefValue image n < -1024 ∨ 1023 < coefValue image n) := by
    simp only [List.mem_map, List.mem_filter, List.mem_range, coefOutOfRange, Bool.or_eq_true, decide_eq_true_eq]
    refine exists_congr fun n => ?_
    omega
  have hsums : o ∈ ((List.range 64).filter (fun ph => decide (phaseSum image ph ≠ 512))).map (fun ph => 8 * ph) ↔
      ∃ ph, ph < 64 ∧ o = 8 * ph ∧ phaseSum image ph ≠ 512 := by
    simp only [List.mem_map, List.mem_filter, List.mem_range, decide_eq_true_eq]
    refine exists_congr fun ph => ?_
    omega
  unfold coefFaults
  rw [List.mem_append, hrange, hsums]
  unfold phaseSum coefOf
  simp only [hvalue]
  rfl

theorem curveFault_iff (image : List Byte) (k : Nat) : curveFault image k = true ↔
    64 < curveWeight image k ∨ (1 ≤ k ∧ curveWeight image k < curveWeight image (k - 1)) := by
  simp [curveFault, Nat.one_le_iff_ne_zero]

theorem mem_curveFaults (i : Fin 4) (image : List Byte) (o : Nat) : o ∈ curveFaults image ↔ FaultAt (.curve i) image o := by
  unfold curveFaults
  rw [List.mem_filter, List.mem_range, curveFault_iff]
  rfl

/-! ### The lowest fault -/

/-- The offsets that validation finds are those of R149. -/
theorem mem_imageFaults (e : TableEntry) (image : List Byte) (o : Nat) : o ∈ imageFaults e image ↔ FaultAt e image o := by
  cases e with
  | pattern i => exact mem_patternFaults i image o
  | coef i => exact mem_coefFaults i image o
  | curve i => exact mem_curveFaults i image o

theorem faultOffset_eq_none {e : TableEntry} {image : List Byte} : faultOffset e image = none ↔ ∀ o, ¬ FaultAt e image o := by
  unfold faultOffset
  rw [List.min?_eq_none_iff, List.eq_nil_iff_forall_not_mem]
  simp only [mem_imageFaults]

theorem faultOffset_eq_some {e : TableEntry} {image : List Byte} {o : Nat} :
    faultOffset e image = some o ↔ FaultAt e image o ∧ ∀ j, j < o → ¬ FaultAt e image j := by
  unfold faultOffset
  rw [List.min?_eq_some_iff]
  simp only [mem_imageFaults]
  refine and_congr_right fun _ => forall_congr' fun j => ?_
  rw [← not_imp_not, Nat.not_le]

/-- Settles O18: the offsets found are those of R149, and the fault offset is the least of them. -/
theorem shadowValidation : Obligations.ShadowValidation :=
  fun _ _ => ⟨faultOffset_eq_none, fun _ => faultOffset_eq_some⟩

end Sys2Proof.Machine
end

section
/-! SUPPORT. The load directives, taken by their rows: LOAD BEGIN, LOAD SEGMENT, LOAD COMMIT, LOAD ABORT and READ TABLE (R146 to
R149, R151, R153). -/

namespace Sys2Proof.Machine

open Sys2Proof

/-! ### Entries (R141, R142) -/

/-- The entry that a table code and a number name (R146, R162). -/
theorem entryOf?_eq_some {table number : Nat} {e : TableEntry} :
    entryOf? table number = some e ↔ tableCode e = table ∧ entryNumber e = number := by
  constructor
  · intro h
    unfold entryOf? at h
    split at h
    iterate 3
      split at h
      · cases h; exact ⟨rfl, rfl⟩
      · cases h
    cases h
  · rintro ⟨rfl, rfl⟩
    cases e with
    | pattern i => exact dif_pos i.isLt
    | coef i => exact dif_pos i.isLt
    | curve i => exact dif_pos i.isLt

theorem entryOf?_eq_none {table number : Nat} :
    entryOf? table number = none ↔ ¬ ∃ e, tableCode e = table ∧ entryNumber e = number := by
  simp only [← entryOf?_eq_some, Option.eq_none_iff_forall_ne_some, not_exists, ne_eq]

/-- There are eight patterns, four coefficient sets and four curves (R141). -/
theorem exists_entry_iff {table number : Nat} : (∃ e, tableCode e = table ∧ entryNumber e = number) ↔
    table ≤ 2 ∧ number ≤ (if table = 0 then 7 else 3) := by
  constructor
  · rintro ⟨e, rfl, rfl⟩
    cases e with
    | pattern i => exact ⟨Nat.zero_le _, Nat.le_of_lt_succ i.isLt⟩
    | coef i => exact ⟨Nat.le_succ _, Nat.le_of_lt_succ i.isLt⟩
    | curve i => exact ⟨Nat.le_refl _, Nat.le_of_lt_succ i.isLt⟩
  · rintro ⟨htable, hnumber⟩
    match table, htable, hnumber with
    | 0, _, hnumber => exact ⟨.pattern ⟨number, Nat.lt_succ_of_le hnumber⟩, rfl, rfl⟩
    | 1, _, hnumber => exact ⟨.coef ⟨number, Nat.lt_succ_of_le hnumber⟩, rfl, rfl⟩
    | 2, _, hnumber => exact ⟨.curve ⟨number, Nat.lt_succ_of_le hnumber⟩, rfl, rfl⟩

/-- The read-only entries are the first two patterns, the first coefficient set and the first curve (R142). -/
theorem readOnlyEntry_iff (e : TableEntry) :
    readOnlyEntry e = true ↔ entryNumber e ≤ (if tableCode e = 0 then 1 else 0) := by
  cases e <;> simp [readOnlyEntry, entryNumber, tableCode]

/-- Bytes of an image that end inside it. -/
theorem drop_take_inside {image : List Byte} {offset count : Nat} (h : offset + count ≤ image.length) :
    ((image.drop offset).take count).length = count ∧
    ∀ i, i < count → ((image.drop offset).take count)[i]? = image[offset + i]? := by
  refine ⟨?_, fun i hi => ?_⟩
  · rw [List.length_take, List.length_drop]
    omega
  · rw [List.getElem?_take_of_lt hi, List.getElem?_drop]

/-! ### Answers beside the load -/

/-- An answer behind a taken head. -/
theorem answer_withTaken (c : Chan) (rest : List Directive) (d : Directive) (code : AnswerCode) (r : Option Reason)
    (data : List Byte) (s : State) : answer c d.tag d.kind code r data (s.setCh c (withTaken rest (s.ch c))) =
      answeredState c rest d code r data s :=
  answer_setCh ..

/-- An answer behind a taken head and a change of the load. -/
theorem answer_withLoad (c : Chan) (rest : List Directive) (d : Directive) (code : AnswerCode) (r : Option Reason)
    (data : List Byte) (l : LoadState) (sh : List Byte) (s : State) :
    answer c d.tag d.kind code r data { s.setCh c (withTaken rest (s.ch c)) with loader := l, shadow := sh } =
      { answeredState c rest d code r data s with loader := l, shadow := sh } :=
  congrArg (fun t : State => { t with loader := l, shadow := sh }) (answer_withTaken c rest d code r data s)

/-! ### What the load directives do, case by case -/

section

variable {c : Chan} {s : State} {d : Directive}

theorem doLoadBegin_busy (h : s.loader ≠ .idle) : doLoadBegin c d s = answerBusy c d s := by
  unfold doLoadBegin
  split
  · next hload _ => exact absurd hload h
  · next hload _ => exact absurd hload h
  · rfl
  · rfl

theorem doLoadBegin_unnamed (h : s.loader = .idle) (hentry : entryOf? (arg1 d.payload 0) (arg1 d.payload 1) = none) :
    doLoadBegin c d s = answerRefused c d .badArgument [] s := by
  unfold doLoadBegin
  rw [h, hentry]

theorem doLoadBegin_named {e : TableEntry} (h : s.loader = .idle)
    (hentry : entryOf? (arg1 d.payload 0) (arg1 d.payload 1) = some e) : doLoadBegin c d s =
      if readOnlyEntry e then answerRefused c d .readOnly [] s
      else answerDone c d [] { s with loader := .loading c e 0 0, shadow := [] } := by
  unfold doLoadBegin
  rw [h, hentry]

theorem doLoadSegment_idle (h : s.loader = .idle) : doLoadSegment c d s = answerRefused c d .noLoad [] s := by
  unfold doLoadSegment
  rw [h]

theorem doLoadSegment_pending {o : Chan} {e : TableEntry} {tag : Byte} {n : Nat} (h : s.loader = .commitPending o e tag n) :
    doLoadSegment c d s = answerBusy c d s := by
  unfold doLoadSegment
  rw [h]

theorem doLoadSegment_loading {o : Chan} {e : TableEntry} {got n : Nat} (h : s.loader = .loading o e got n) :
    doLoadSegment c d s =
      if o ≠ c then answerBusy c d s
      else if arg2 d.payload 0 = got ∧ got + (d.payload.length - 2) ≤ entrySize e then
        answerDone c d []
          { s with loader := .loading o e (got + (d.payload.length - 2)) 0, shadow := s.shadow ++ d.payload.drop 2 }
      else answerRefused c d .sequence [] s := by
  unfold doLoadSegment
  rw [h]
  dsimp only
  rw [List.length_drop]

theorem doLoadCommit_idle (n : Nat) (h : s.loader = .idle) : doLoadCommit c n d s = answerRefused c d .noLoad [] s := by
  unfold doLoadCommit
  rw [h]

theorem doLoadCommit_pending {o : Chan} {e : TableEntry} {tag : Byte} {k : Nat} (n : Nat)
    (h : s.loader = .commitPending o e tag k) : doLoadCommit c n d s = answerBusy c d s := by
  unfold doLoadCommit
  rw [h]

theorem doLoadCommit_other {o : Chan} {e : TableEntry} {got k : Nat} (n : Nat) (h : s.loader = .loading o e got k)
    (howner : o ≠ c) : doLoadCommit c n d s = answerBusy c d s := by
  unfold doLoadCommit
  rw [h]
  exact if_pos howner

theorem doLoadCommit_incomplete {e : TableEntry} {got k : Nat} (n : Nat) (h : s.loader = .loading c e got k)
    (hshort : got < entrySize e) : doLoadCommit c n d s = answerRefused c d .incomplete [] s := by
  unfold doLoadCommit
  rw [h]
  exact (if_neg fun hne => hne rfl).trans (if_pos hshort)

theorem doLoadCommit_valid {e : TableEntry} {got k : Nat} (n : Nat) (h : s.loader = .loading c e got k)
    (hcomplete : entrySize e ≤ got) (hvalid : faultOffset e s.shadow = none) :
    doLoadCommit c n d s = { s with loader := .commitPending c e d.tag n } := by
  unfold doLoadCommit
  rw [h]
  dsimp only
  rw [if_neg fun hne => hne rfl, if_neg (Nat.not_lt.2 hcomplete), hvalid]

theorem doLoadCommit_faulty {e : TableEntry} {got k i : Nat} (n : Nat) (h : s.loader = .loading c e got k)
    (hcomplete : entrySize e ≤ got) (hfault : faultOffset e s.shadow = some i) :
    doLoadCommit c n d s = answerRefused c d .validation (bytes2 i) { s with loader := .idle, shadow := [] } := by
  unfold doLoadCommit
  rw [h]
  dsimp only
  rw [if_neg fun hne => hne rfl, if_neg (Nat.not_lt.2 hcomplete), hfault]

theorem doLoadAbort_idle (h : s.loader = .idle) : doLoadAbort c d s = answerDone c d [] s := by
  unfold doLoadAbort
  rw [h]

theorem doLoadAbort_pending {o : Chan} {e : TableEntry} {tag : Byte} {n : Nat} (h : s.loader = .commitPending o e tag n) :
    doLoadAbort c d s = answerBusy c d s := by
  unfold doLoadAbort
  rw [h]

theorem doLoadAbort_loading {o : Chan} {e : TableEntry} {got n : Nat} (h : s.loader = .loading o e got n) :
    doLoadAbort c d s =
      if o = c then answerDone c d [] { s with loader := .idle, shadow := [] } else answerBusy c d s := by
  unfold doLoadAbort
  rw [h]

theorem doReadTable_unnamed (hentry : entryOf? (arg1 d.payload 0) (arg1 d.payload 1) = none) :
    doReadTable c d s = answerRefused c d .badArgument [] s := by
  unfold doReadTable
  rw [hentry]

theorem doReadTable_named {e : TableEntry} (hentry : entryOf? (arg1 d.payload 0) (arg1 d.payload 1) = some e) :
    doReadTable c d s =
      if 192 < arg1 d.payload 4 ∨ entrySize e < arg2 d.payload 2 + arg1 d.payload 4 then answerRefused c d .badArgument [] s
      else answerDone c d (((tableImage s.tables e).drop (arg2 d.payload 2)).take (arg1 d.payload 4)) s := by
  unfold doReadTable
  rw [hentry]

end

/-! ### The rows -/

/-- Settles O15: BUSY beside a load, and in IDLE by the entry that the payload names. -/
theorem loadBeginResult : Obligations.LoadBeginResult := by
  intro c s d rest htake table number htable hnumber
  subst htable hnumber
  have hexec : exec (.loadBegin c) s = .next (doLoadBegin c d (s.setCh c (withTaken rest (s.ch c)))) :=
    exec_directiveRow_takeable htake (k := .loadBegin) rfl (Nat.le_refl 2)
  rw [hexec]
  refine ⟨fun hload => congrArg Host.Outcome.next ?_, fun hload hout => congrArg Host.Outcome.next ?_,
    fun hload hin hfirst => congrArg Host.Outcome.next ?_, fun hload hin hlater hnumber => ?_⟩
  · exact (doLoadBegin_busy (s := s.setCh ..) hload).trans (answer_withTaken ..)
  · have hnone : entryOf? (arg1 d.payload 0) (arg1 d.payload 1) = none := by
      rw [entryOf?_eq_none, exists_entry_iff]
      unfold arg1 byteAt
      split <;> omega
    exact (doLoadBegin_unnamed (s := s.setCh ..) hload hnone).trans (answer_withTaken ..)
  · obtain ⟨e, htable, hnumber⟩ := exists_entry_iff.2 ⟨hin, Nat.le_trans hfirst (by split <;> decide)⟩
    have hbuiltin : readOnlyEntry e = true := (readOnlyEntry_iff e).2 (by rw [htable, hnumber]; exact hfirst)
    exact ((doLoadBegin_named (s := s.setCh ..) hload (entryOf?_eq_some.2 ⟨htable, hnumber⟩)).trans (if_pos hbuiltin)).trans
      (answer_withTaken ..)
  · obtain ⟨e, htable, hnumber⟩ := exists_entry_iff.2 ⟨hin, hnumber⟩
    have hwritable : ¬ readOnlyEntry e = true := by
      rw [readOnlyEntry_iff, htable, hnumber]
      exact Nat.not_le.2 hlater
    exact ⟨e, htable, hnumber, congrArg Host.Outcome.next (((doLoadBegin_named (s := s.setCh ..) hload
      (entryOf?_eq_some.2 ⟨htable, hnumber⟩)).trans (if_neg hwritable)).trans (answer_withLoad ..))⟩

/-- Settles O16: by the load state, and in LOADING by owner and sequence. -/
theorem loadSegmentResult : Obligations.LoadSegmentResult := by
  intro c s d rest htake
  have hexec : exec (.loadSegment c) s = .next (doLoadSegment c d (s.setCh c (withTaken rest (s.ch c)))) :=
    exec_directiveRow_takeable htake (k := .loadSegment) rfl (Nat.le_refl 2)
  rw [hexec]
  refine ⟨fun hload => congrArg Host.Outcome.next ?_, fun o e tag n hload => congrArg Host.Outcome.next ?_,
    fun o e got idleCount hload => congrArg Host.Outcome.next ?_⟩
  · exact (doLoadSegment_idle (s := s.setCh ..) hload).trans (answer_withTaken ..)
  · exact (doLoadSegment_pending (s := s.setCh ..) hload).trans (answer_withTaken ..)
  · refine (doLoadSegment_loading (s := s.setCh ..) hload).trans (ite_congr rfl (fun _ => answer_withTaken ..) fun _ => ?_)
    exact ite_congr rfl (fun _ => answer_withLoad ..) fun _ => answer_withTaken ..

/-- Settles O17: by the load state, and for the owner of a complete load by the lowest fault of the shadow. -/
theorem loadCommitResult : Obligations.LoadCommitResult := by
  intro c s d rest htake
  have hexec : exec (.loadCommit c) s = .next (doLoadCommit c (s.startNo + 1) d (s.setCh c (withTaken rest (s.ch c)))) :=
    exec_directiveRow_takeable htake (k := .loadCommit) rfl (Nat.zero_le _)
  rw [hexec]
  refine ⟨fun hload => congrArg Host.Outcome.next ?_, fun o e tag n hload => congrArg Host.Outcome.next ?_,
    fun o e got idleCount hload => ⟨fun howner => congrArg Host.Outcome.next ?_, ?_, ?_, ?_⟩⟩
  · exact (doLoadCommit_idle (s := s.setCh ..) _ hload).trans (answer_withTaken ..)
  · exact (doLoadCommit_pending (s := s.setCh ..) _ hload).trans (answer_withTaken ..)
  · exact (doLoadCommit_other (s := s.setCh ..) _ hload howner).trans (answer_withTaken ..)
  · rintro rfl hshort
    exact congrArg Host.Outcome.next ((doLoadCommit_incomplete (s := s.setCh ..) _ hload hshort).trans (answer_withTaken ..))
  · rintro rfl hcomplete hvalid
    exact congrArg Host.Outcome.next (doLoadCommit_valid (s := s.setCh ..) _ hload hcomplete (faultOffset_eq_none.2 hvalid))
  · rintro i rfl hcomplete hfault hleast
    exact congrArg Host.Outcome.next ((doLoadCommit_faulty (s := s.setCh ..) _ hload hcomplete
      (faultOffset_eq_some.2 ⟨hfault, hleast⟩)).trans (answer_withLoad ..))

/-- Settles O19: by the load state and the owner. -/
theorem loadAbortResult : Obligations.LoadAbortResult := by
  intro c s d rest htake
  have hexec : exec (.loadAbort c) s = .next (doLoadAbort c d (s.setCh c (withTaken rest (s.ch c)))) :=
    exec_directiveRow_takeable htake (k := .loadAbort) rfl (Nat.zero_le _)
  rw [hexec]
  refine ⟨fun hload => congrArg Host.Outcome.next ?_, fun o e tag n hload => congrArg Host.Outcome.next ?_,
    fun o e got idleCount hload => congrArg Host.Outcome.next ?_⟩
  · exact (doLoadAbort_idle (s := s.setCh ..) hload).trans (answer_withTaken ..)
  · exact (doLoadAbort_pending (s := s.setCh ..) hload).trans (answer_withTaken ..)
  · exact (doLoadAbort_loading (s := s.setCh ..) hload).trans
      (ite_congr rfl (fun _ => answer_withLoad ..) fun _ => answer_withTaken ..)

/-- Settles O20: by the entry that the payload names, and the bytes asked for. -/
theorem readTableResult : Obligations.ReadTableResult := by
  intro c s d rest htake b offset count hb hoffset hcount
  subst hb hoffset hcount
  beta_reduce
  have hexec : exec (.readTable c) s = .next (doReadTable c d (s.setCh c (withTaken rest (s.ch c)))) :=
    exec_directiveRow_takeable htake (k := .readTable) rfl (Nat.le_refl 5)
  rw [hexec]
  refine ⟨fun hnone => congrArg Host.Outcome.next ?_, fun e htable hnumber => ?_⟩
  · exact (doReadTable_unnamed (entryOf?_eq_none.2 hnone)).trans (answer_withTaken ..)
  · have hnamed := doReadTable_named (c := c) (s := s.setCh c (withTaken rest (s.ch c)))
      (entryOf?_eq_some.2 ⟨htable, hnumber⟩)
    refine ⟨fun hout => congrArg Host.Outcome.next ?_, fun hmost hend => ?_⟩
    · exact (hnamed.trans (if_pos hout)).trans (answer_withTaken ..)
    · have hinside : ¬ (192 < arg1 d.payload 4 ∨ entrySize e < arg2 d.payload 2 + arg1 d.payload 4) := fun hout =>
        hout.elim (Nat.not_lt.2 hmost) (Nat.not_lt.2 hend)
      exact ⟨_, congrArg Host.Outcome.next ((hnamed.trans (if_neg hinside)).trans (answer_withTaken ..)),
        fun hlength => drop_take_inside (Nat.le_trans hend (Nat.le_of_eq hlength.symm))⟩

end Sys2Proof.Machine
end

section
/-! SUPPORT. The loader's own rows: LOAD_ABANDONED (R152) and TABLE_SWAP (R81, R150), done ahead of their output frame start (log
entry 2). -/

namespace Sys2Proof.Machine

open Sys2Proof

/-! ### LOAD_ABANDONED (R152) -/

theorem exec_loadAbandoned_loading {owner : Chan} {e : TableEntry} {got n : Nat} {s : State}
    (h : s.loader = .loading owner e got n) : exec .loadAbandoned s =
      if 100 ≤ n + 1 ∧ s.loaderDone = false then .next (loaderWork (s.startNo + 1) s) else .next s := by
  show execLoadAbandoned s = _
  unfold execLoadAbandoned
  rw [h]

theorem exec_loadAbandoned_other {s : State} (h : ∀ owner e got n, s.loader ≠ .loading owner e got n) :
    exec .loadAbandoned s = .next s := by
  show execLoadAbandoned s = _
  unfold execLoadAbandoned
  split
  · next hload => exact absurd hload (h _ _ _ _)
  · rfl

/-- Settles O44: the idle count of 99 advances to 100 and abandons the load; a smaller one does not. -/
theorem loadAbandonedResult : Obligations.LoadAbandonedResult := by
  intro s
  refine ⟨fun owner e got hload hdone => ?_, fun owner e got n hload hn => ?_, fun h => ?_⟩
  · rw [exec_loadAbandoned_loading hload, if_pos ⟨Nat.le_refl 100, hdone⟩, loaderWork_abandons hload (Nat.le_refl 100) hdone]
    rfl
  · rw [exec_loadAbandoned_loading hload, if_neg fun habandons => by omega]
  · by_cases hload : ∀ owner e got n, s.loader ≠ .loading owner e got n
    · exact exec_loadAbandoned_other hload
    · have hdone : s.loaderDone = true := h.resolve_left hload
      simp only [not_forall, not_not] at hload
      obtain ⟨owner, e, got, n, hload⟩ := hload
      rw [exec_loadAbandoned_loading hload, if_neg fun habandons => by rw [hdone] at habandons; cases habandons.2]

/-! ### A swapped pattern and the trackers (R81) -/

/-- The tracker behind a swap of entry `i`, by its state (R81). -/
theorem patternSwapped_track (i : Fin 8) (k : Track) : (patternSwapped i k).1 = match k with
    | .locked p ph => if p = i then .search none else .locked p ph
    | .hold p ph m => if p = i then .search none else .hold p ph m
    | .search (some x) => if x.pat = i then .search none else .search (some x)
    | .search none => .search none := by
  cases k with
  | search x =>
    cases x with
    | none => rfl
    | some y => exact apply_ite Prod.fst (y.pat = i) _ _
  | locked p ph => exact apply_ite Prod.fst (p = i) _ _
  | hold p ph m => exact apply_ite Prod.fst (p = i) _ _

/-- A swap gives up a lock in LOCKED and in HOLD on its entry; in SEARCH there is none to give up (R81). -/
theorem patternSwapped_lost (i : Fin 8) (k : Track) :
    (patternSwapped i k).2 = true ↔ (∃ ph, k = .locked i ph) ∨ ∃ ph m, k = .hold i ph m := by
  cases k with
  | search x =>
    have hnone : (patternSwapped i (.search x)).2 = false := by
      cases x with
      | none => rfl
      | some y => exact (apply_ite Prod.snd (y.pat = i) _ _).trans (ite_self _)
    simp [hnone]
  | locked p ph => by_cases h : p = i <;> simp [patternSwapped, h]
  | hold p ph m => by_cases h : p = i <;> simp [patternSwapped, h]

/-- What depends on whether a lock is given up, by the state of the tracker. -/
theorem patternSwapped_ite {α : Type} (i : Fin 8) (k : Track) (given kept : α) :
    (if (patternSwapped i k).2 = true then given else kept) = match k with
      | .locked p _ => if p = i then given else kept
      | .hold p _ _ => if p = i then given else kept
      | .search _ => kept := by
  cases k with
  | search x => exact if_neg fun h => by simpa using (patternSwapped_lost i (.search x)).1 h
  | locked p ph => by_cases h : p = i <;> simp [patternSwapped, h]
  | hold p ph m => by_cases h : p = i <;> simp [patternSwapped, h]

/-- A channel to whose tracker the swap of pattern `i` was handed; `rep` is its report port where a lock is given up (R81). -/
def trackerSwapped (i : Fin 8) (rep : ReportPort) (ch : Channel) : Channel :=
  { ch with
    cad := { ch.cad with track := (patternSwapped i ch.cad.track).1 }
    stats := if (patternSwapped i ch.cad.track).2 then
      { ch.stats with cadenceLosses := satAdd ch.stats.cadenceLosses 1 } else ch.stats
    rep := if (patternSwapped i ch.cad.track).2 then rep else ch.rep }

/-- A lock given up counts, and raises CADENCE_LOST with the last decided field (R79, R81). -/
theorem swapTracker_ch_same (i : Fin 8) (c : Chan) (s : State) : (swapTracker i c s).ch c =
    trackerSwapped i ((raise c .cadenceLost ((s.ch c).cad.lastDecided.getD 0) s).ch c).rep (s.ch c) := by
  have hset : ∀ x, (s.setCh c x).ch c = x := State.ch_setCh_same s c
  unfold swapTracker trackerSwapped
  dsimp only
  split
  · rw [State.modCh_setCh, raise_ch_same, raise_rep_congr (s := s) (by rw [hset]) (by rw [hset]) (State.loader_setCh ..), hset]
  · exact hset _

theorem swapTracker_ch_ne (i : Fin 8) {c d : Chan} (h : d ≠ c) (s : State) : (swapTracker i c s).ch d = s.ch d := by
  unfold swapTracker
  dsimp only
  split
  · rw [raise_ch_ne _ _ h, State.ch_modCh_ne _ h, State.ch_setCh_ne _ h]
  · exact State.ch_setCh_ne s h _

/-! ### The swap on each channel (R150) -/

/-- A channel to whose readers the swap of an entry was handed: patterns to the tracker, coefficients to the Scaler, curves to
the engine (R81, R84, R105, R150). -/
def swapHanded (n : Nat) (e : TableEntry) (image : List Byte) (rep : ReportPort) (ch : Channel) : Channel :=
  match e with
  | .pattern i => trackerSwapped i rep ch
  | .coef i    => { ch with scaler := ch.scaler.map (refreshCoefs n i image) }
  | .curve i   => { ch with engine := ch.engine.map (refreshCurve n i image) }

theorem handSwap_ch_same (n : Nat) (e : TableEntry) (image : List Byte) (c : Chan) (s : State) : (handSwap n e image c s).ch c =
    swapHanded n e image ((raise c .cadenceLost ((s.ch c).cad.lastDecided.getD 0) s).ch c).rep (s.ch c) := by
  cases e with
  | pattern i => exact swapTracker_ch_same i c s
  | coef i => exact State.ch_modCh_same ..
  | curve i => exact State.ch_modCh_same ..

theorem handSwap_ch_ne (n : Nat) (e : TableEntry) (image : List Byte) {c d : Chan} (h : d ≠ c) (s : State) :
    (handSwap n e image c s).ch d = s.ch d := by
  cases e with
  | pattern i => exact swapTracker_ch_ne i h s
  | coef i => exact State.ch_modCh_ne s h _
  | curve i => exact State.ch_modCh_ne s h _

/-- What a swap hands to a channel depends on the channel and on the answer that the load owes. -/
theorem handSwap_ch_congr (n : Nat) (e : TableEntry) (image : List Byte) {c : Chan} {s t : State} (hch : t.ch c = s.ch c)
    (hload : t.loader = s.loader) : (handSwap n e image c t).ch c = (handSwap n e image c s).ch c := by
  rw [handSwap_ch_same, handSwap_ch_same, hch, raise_ch_congr hch hload]

/-- A swap reaches neither the channel's control and ring nor its receiver and packet unit. -/
theorem swapHanded_keeps (n : Nat) (e : TableEntry) (image : List Byte) (rep : ReportPort) (ch : Channel) :
    (swapHanded n e image rep ch).ctl = ch.ctl ∧ (swapHanded n e image rep ch).ring = ch.ring ∧
    (swapHanded n e image rep ch).recv = ch.recv ∧ (swapHanded n e image rep ch).pku = ch.pku := by
  cases e <;> exact ⟨rfl, rfl, rfl, rfl⟩

/-- Coefficients and curves reach neither the tracker nor the statistics nor the report port. -/
theorem swapHanded_filters (n : Nat) {e : TableEntry} (he : ∀ i, e ≠ .pattern i) (image : List Byte) (rep : ReportPort)
    (ch : Channel) : (swapHanded n e image rep ch).cad = ch.cad ∧ (swapHanded n e image rep ch).stats = ch.stats ∧
      (swapHanded n e image rep ch).rep = ch.rep := by
  cases e with
  | pattern i => exact absurd rfl (he i)
  | coef i => exact ⟨rfl, rfl, rfl⟩
  | curve i => exact ⟨rfl, rfl, rfl⟩

/-- The deferred answer of a load on its owner's queue (R150, R161). -/
def withCommitAnswer (own : Prop) [Decidable own] (tag : Byte) (rep : ReportPort) : ReportPort :=
  if own then { rep with queue := rep.queue ++ [.answer tag 18 .done none []] } else rep

/-- A channel after a swap: what was handed to it, and on the owner the deferred answer. -/
theorem swapTable_ch (n : Nat) (owner : Chan) (e : TableEntry) (tag : Byte) (s : State) (c : Chan) : ∃ x,
    x = swapHanded n e s.shadow ((raise c .cadenceLost ((s.ch c).cad.lastDecided.getD 0) s).ch c).rep (s.ch c) ∧
    (swapTable n owner e tag s).ch c = { x with rep := withCommitAnswer (c = owner) tag x.rep } := by
  have hhanded : ∀ d, (eachChan (handSwap n e s.shadow) { s with tables := setTableImage s.tables e s.shadow }).ch d =
      (handSwap n e s.shadow d s).ch d := fun d =>
    (eachChan_ch (fun c d s hd => handSwap_ch_ne n e _ hd s) (fun c s => (keepsDevice_handSwap n e _ c s).loader)
      (fun c s t => handSwap_ch_congr n e _) _ d).trans (handSwap_ch_congr n e _ rfl rfl)
  refine ⟨_, rfl, ?_⟩
  rw [← handSwap_ch_same, ← hhanded c]
  unfold swapTable answer withCommitAnswer
  dsimp only
  split
  · next h =>
    subst h
    exact State.ch_modCh_same ..
  · next h => exact State.ch_modCh_ne _ h _

/-! ### TABLE_SWAP -/

theorem exec_tableSwap_pending {owner : Chan} {e : TableEntry} {tag : Byte} {n : Nat} {s : State}
    (h : s.loader = .commitPending owner e tag n) (hn : n ≤ s.startNo) (hdone : s.loaderDone = false) :
    exec .tableSwap s = .next { swapTable (s.startNo + 1) owner e tag s with loaderDone := true } := by
  have hrow : exec .tableSwap s = .next (loaderWork (s.startNo + 1) s) := by
    show execTableSwap s = _
    unfold execTableSwap
    rw [h]
    exact if_pos ⟨Nat.lt_succ_of_le hn, hdone⟩
  rw [hrow]
  unfold loaderWork loaderAdvance
  rw [hdone, h]
  dsimp only
  rw [if_neg Bool.false_ne_true, if_pos (Nat.lt_succ_of_le hn)]

/-- Nothing swaps a second time at an output frame start, at the start of the commit itself, or without a commit. -/
theorem exec_tableSwap_idle {s : State}
    (h : ∀ owner e tag n, s.loader = .commitPending owner e tag n → s.startNo < n ∨ s.loaderDone = true) :
    exec .tableSwap s = .next s := by
  show execTableSwap s = _
  unfold execTableSwap
  split
  · next hload =>
    refine if_neg fun ⟨hstart, hdone⟩ => ?_
    rcases h _ _ _ _ hload with hlater | htwice
    · omega
    · rw [hdone] at htwice
      cases htwice
  · rfl

/-- Settles O45: the swap of the tables, what it hands to each channel, and the deferred answer behind it. -/
theorem tableSwapResult : Obligations.TableSwapResult := by
  intro s
  refine ⟨fun owner e tag n hload hn hdone => ?_, exec_tableSwap_idle⟩
  obtain ⟨m, hm⟩ : ∃ m, m = s.startNo + 1 := ⟨_, rfl⟩
  have htables : (swapTable m owner e tag s).tables = setTableImage s.tables e s.shadow :=
    congrArg Prod.fst (loadOf_swapTable m owner e tag s)
  have hdevice := keepsDevice_eachChan (keepsDevice_handSwap m e s.shadow) { s with tables := setTableImage s.tables e s.shadow }
  have hch : ∀ c, ∃ x,
      x = swapHanded m e s.shadow ((raise c .cadenceLost ((s.ch c).cad.lastDecided.getD 0) s).ch c).rep (s.ch c) ∧
      ({ swapTable m owner e tag s with loaderDone := true } : State).ch c =
        { x with rep := withCommitAnswer (c = owner) tag x.rep } := swapTable_ch m owner e tag s
  refine ⟨_, hm ▸ exec_tableSwap_pending hload hn hdone, ?_⟩
  refine ⟨?_, fun x hx => ?_, rfl, rfl, rfl, ?_, fun he c => ?_, fun i he c => ?_, fun c => ?_, hdevice.dram, hdevice.rtu,
    hdevice.capture⟩
  · exact (congrArg (tableImage · e) htables).trans ((tableImage_setTableImage ..).trans (if_pos rfl))
  · exact (congrArg (tableImage · x) htables).trans ((tableImage_setTableImage ..).trans (if_neg hx))
  · obtain ⟨x, -, hx⟩ := hch owner
    rw [hx, withCommitAnswer, if_pos rfl]
    exact List.getLast?_concat
  · obtain ⟨x, hhanded, hx⟩ := hch c
    obtain ⟨hcad, hstats, hrep⟩ := swapHanded_filters m he s.shadow
      ((raise c .cadenceLost ((s.ch c).cad.lastDecided.getD 0) s).ch c).rep (s.ch c)
    rw [← hhanded] at hcad hstats hrep
    rw [hx, ← hrep]
    exact ⟨hcad, hstats, rfl⟩
  · obtain ⟨x, hhanded, hx⟩ := hch c
    subst he
    have htrack : x = trackerSwapped i ((raise c .cadenceLost ((s.ch c).cad.lastDecided.getD 0) s).ch c).rep (s.ch c) := hhanded
    rw [hx, htrack]
    refine ⟨patternSwapped_track .., rfl, patternSwapped_ite .., fun lost rep hlost hraised hkept => ?_⟩
    have hgiven : (patternSwapped i (s.ch c).cad.track).2 = true ↔ lost := (patternSwapped_lost ..).trans hlost.symm
    have hrep : (trackerSwapped i ((raise c .cadenceLost ((s.ch c).cad.lastDecided.getD 0) s).ch c).rep (s.ch c)).rep = rep := by
      unfold trackerSwapped
      dsimp only
      split
      · next h => exact (hraised (hgiven.1 h)).symm
      · next h => exact (hkept fun hl => h (hgiven.2 hl)).symm
    rw [hrep]
    rfl
  · obtain ⟨x, hhanded, hx⟩ := hch c
    rw [hx, hhanded]
    exact swapHanded_keeps ..

end Sys2Proof.Machine
end

section
/-! SUPPORT. The places of report queues, window lists and directive queues, and the held status (R158, R161, R166, R168, R171):
what of a channel and of the load they depend on, and what a report, an answer, a delivery and an insertion do to them. -/

namespace Sys2Proof.Machine

open Sys2Proof

/-! ### What the places of one channel depend on -/

/-- Of a channel: its Report Unit's part, the deferred HALT answer it may owe, and its directive queue. -/
structure PortView where
  rep      : ReportPort
  halt     : Option HaltRecord
  dirQueue : List Directive

def portView (ch : Channel) : PortView := ⟨ch.rep, ch.ctl.halt, ch.pku.dirQueue⟩

/-- R171, of one held status. -/
def HeldSound (h : Held) : Prop := (h.kinds = 0 → h.count = 0) ∧ (h.kinds ≠ 0 → 1 ≤ h.count ∧ h.count ≤ 255)

/-- The places of one channel suffice (R158, R161, R166, R168), `spare` places of the report queue being free besides; `owed`
says that the load owes the channel its deferred answer. Its held status is sound (R171). -/
structure PortFits (owed : Bool) (spare : Nat) (v : PortView) : Prop where
  places     : v.rep.queue.length + ((if v.halt.isSome then 1 else 0) + (if owed then 1 else 0)) + spare ≤ 8
  events     : eventCount v.rep.queue ≤ 6
  window     : v.rep.window.length ≤ 4
  directives : v.dirQueue.length ≤ 8
  held       : HeldSound v.rep.held

theorem eventCount_append (q r : List Report) : eventCount (q ++ r) = eventCount q + eventCount r := List.countP_append

theorem heldSound_empty : HeldSound emptyHeld := ⟨fun _ => rfl, fun h => absurd rfl h⟩

theorem kindSet_ne_zero (k : EventKind) : kindSet k ≠ 0 := by cases k <;> decide

/-- A kind joined is in the held status, and counted (R170). -/
theorem heldSound_joinHeld (h : Held) (k : EventKind) (field : Nat) : HeldSound (joinHeld h k field) := by
  refine ⟨fun hnone => absurd (BitVec.or_eq_zero_iff.1 hnone).2 (kindSet_ne_zero k), fun _ => ?_⟩
  show 1 ≤ min 255 (h.count + 1) ∧ min 255 (h.count + 1) ≤ 255
  omega

/-- What a delivery leaves of a held status: nothing, or its masked kinds with count 1 (R171). -/
theorem heldSound_heldAfterDelivery (h : Held) (mask : BitVec 16) : HeldSound (heldAfterDelivery h mask) := by
  unfold heldAfterDelivery
  split
  · exact heldSound_empty
  · next hkinds => exact ⟨fun hnone => absurd hnone hkinds, fun _ => ⟨Nat.le_refl 1, show 1 ≤ 255 by decide⟩⟩

section

variable {owed : Bool} {spare n : Nat} {v : PortView}

theorem PortFits.mono (h : PortFits owed spare v) {owed' : Bool} (howed : owed' = true → owed = true) (hn : n ≤ spare) :
    PortFits owed' n v := by
  refine { h with places := ?_ }
  have hplaces := h.places
  cases owed <;> cases owed' <;> simp_all <;> omega

/-- A report takes a spare place (R166). -/
theorem PortFits.push (h : PortFits owed (n + 1) v) (r : Report) (hr : eventCount (v.rep.queue ++ [r]) ≤ 6) :
    PortFits owed n { v with rep := { v.rep with queue := v.rep.queue ++ [r] } } := by
  refine { h with places := ?_, events := hr }
  have hplaces := h.places
  dsimp only
  rw [List.length_append, List.length_singleton]
  omega

/-- An answer counts among no EVENT and no RELAY (R166). -/
theorem PortFits.pushAnswer (h : PortFits owed (n + 1) v) (tag kind : Byte) (code : AnswerCode) (r : Option Reason)
    (data : List Byte) :
    PortFits owed n { v with rep := { v.rep with queue := v.rep.queue ++ [.answer tag kind code r data] } } :=
  h.push _ (by rw [eventCount_append]; exact h.events)

/-- An EVENT or RELAY with room for it (R166). -/
theorem PortFits.pushEvent (h : PortFits owed (n + 1) v) (hroom : eventCount v.rep.queue < 6) (r : Report) :
    PortFits owed n { v with rep := { v.rep with queue := v.rep.queue ++ [r] } } := by
  refine h.push r ?_
  rw [eventCount_append]
  have hone : eventCount [r] ≤ 1 := List.countP_le_length
  omega

theorem PortFits.withHeld (h : PortFits owed n v) {x : Held} (hx : HeldSound x) :
    PortFits owed n { v with rep := { v.rep with held := x } } := { h with held := hx }

/-- A deferred HALT answer takes a spare place ahead (R161). -/
theorem PortFits.halting (h : PortFits owed (n + 1) v) (r : HaltRecord) : PortFits owed n { v with halt := some r } := by
  refine { h with places := ?_ }
  have hplaces := h.places
  dsimp only
  rw [Option.isSome_some, if_pos rfl]
  omega

/-- The place of a deferred HALT answer is free again once the answer is owed no more (R161). -/
theorem PortFits.halted (h : PortFits owed n v) (hhalt : v.halt.isSome = true) :
    PortFits owed (n + 1) { v with halt := none } := by
  refine { h with places := ?_ }
  have hplaces := h.places
  rw [if_pos hhalt] at hplaces
  dsimp only
  rw [Option.isSome_none, if_neg Bool.false_ne_true]
  omega

/-- A deferred LOAD COMMIT answer takes a spare place ahead (R161). -/
theorem PortFits.committing (h : PortFits owed (n + 1) v) : PortFits true n v := by
  refine { h with places := ?_ }
  have hplaces := h.places
  rw [if_pos rfl]
  omega

/-- The place of a deferred LOAD COMMIT answer is free again once the answer is owed no more (R161). -/
theorem PortFits.committed (h : PortFits true n v) : PortFits false (n + 1) v := by
  refine { h with places := ?_ }
  have hplaces := h.places
  rw [if_pos rfl] at hplaces
  rw [if_neg Bool.false_ne_true]
  omega

/-- A delivery takes a spare place (R171). -/
theorem PortFits.delivered (h : PortFits owed (n + 1) v) (hroom : eventCount v.rep.queue < 6) :
    PortFits owed n { v with rep := deliveredPort v.rep } :=
  (h.pushEvent hroom _).withHeld (heldSound_heldAfterDelivery _ _)

/-- The head of the directive queue leaves it (R158). -/
theorem PortFits.taken (h : PortFits owed n v) {d : Directive} {rest : List Directive} (hqueue : v.dirQueue = d :: rest) :
    PortFits owed n { v with dirQueue := rest } := by
  have hdirectives := h.directives
  rw [hqueue, List.length_cons] at hdirectives
  exact { h with directives := Nat.le_of_succ_le hdirectives }

end

/-- Reports inserted into the window list (R168). -/
theorem PortFits.inserted {owed : Bool} {ch : Channel} (h : PortFits owed 0 (portView ch)) :
    PortFits owed 0 (portView (insertReports ch)) := by
  have hwindow : ch.rep.window.length ≤ 4 := h.window
  have hplaces := h.places
  refine { h with
    places := ?_
    events := ((List.drop_sublist _ _).countP_le).trans h.events
    window := ?_ }
  · show (ch.rep.queue.drop (4 - ch.rep.window.length)).length + _ + 0 ≤ 8
    exact (Nat.add_le_add_right (Nat.add_le_add_right (List.drop_sublist _ _).length_le _) _).trans hplaces
  · show (ch.rep.window ++ ch.rep.queue.take (4 - ch.rep.window.length)).length ≤ 4
    rw [List.length_append, List.length_take]
    omega

/-- A report sent leaves the window list (R168). -/
theorem PortFits.sent {owed : Bool} {ch : Channel} (h : PortFits owed 0 (portView ch)) (device : BitVec 4) :
    PortFits owed 0 (portView (sendReport device ch)) := by
  unfold sendReport
  split
  · exact h
  · next r rest hsome =>
    have hwindow : ch.rep.window.length ≤ 4 := h.window
    rw [hsome, List.length_cons] at hwindow
    exact { h with window := Nat.le_of_succ_le hwindow }

/-! ### The places of every channel -/

/-- Every channel's places suffice, and every held status is sound. -/
def PortsFit (s : State) : Prop := ∀ c, PortFits (owesCommit s.loader c) 0 (portView (s.ch c))

theorem portsFit_iff (s : State) : QueuesFit s ∧ HeldStatusSound s ↔ PortsFit s := by
  refine ⟨fun ⟨hqueues, hheld⟩ c => ?_, fun h => ⟨fun c => ?_, fun c => (h c).held⟩⟩
  · obtain ⟨hplaces, hevents, hwindow, hdirectives⟩ := hqueues c
    exact ⟨hplaces, hevents, hwindow, hdirectives, hheld c⟩
  · exact ⟨(h c).places, (h c).events, (h c).window, (h c).directives⟩

/-- Nothing that the places depend on differs. -/
structure PortsStand (s t : State) : Prop where
  loader : t.loader = s.loader
  views  : ∀ c, portView (t.ch c) = portView (s.ch c)

section

variable {s t u : State} {c : Chan} {f : Channel → Channel} {x : Channel}

theorem PortsStand.refl (s : State) : PortsStand s s := ⟨rfl, fun _ => rfl⟩

theorem PortsStand.trans (h : PortsStand s t) (k : PortsStand t u) : PortsStand s u :=
  ⟨k.loader.trans h.loader, fun c => (k.views c).trans (h.views c)⟩

theorem portsStand_of_chans (hloader : t.loader = s.loader) (h : t.chans = s.chans) : PortsStand s t :=
  ⟨hloader, fun c => congrArg portView (State.ch_congr h c)⟩

theorem portsStand_setCh (h : portView x = portView (s.ch c)) : PortsStand s (s.setCh c x) :=
  ⟨rfl, fun e => by
    by_cases he : e = c
    · subst he; rw [State.ch_setCh_same, h]
    · rw [State.ch_setCh_ne _ he]⟩

theorem portsStand_modCh (h : portView (f (s.ch c)) = portView (s.ch c)) : PortsStand s (s.modCh c f) := portsStand_setCh h

theorem PortsFit.stand (h : PortsFit s) (k : PortsStand s t) : PortsFit t := fun c => by
  rw [k.loader, k.views]; exact h c

theorem PortsFit.setCh (h : PortsFit s) (hx : PortFits (owesCommit s.loader c) 0 (portView x)) : PortsFit (s.setCh c x) :=
  fun e => by
    by_cases he : e = c
    · subst he; rw [State.ch_setCh_same]; exact hx
    · rw [State.ch_setCh_ne _ he]; exact h e

theorem PortsFit.modCh (h : PortsFit s) (hf : PortFits (owesCommit s.loader c) 0 (portView (f (s.ch c)))) :
    PortsFit (s.modCh c f) := h.setCh hf

theorem PortsFit.eachChan {f : Chan → State → State} (hf : ∀ c s, PortsFit s → PortsFit (f c s)) (h : PortsFit s) :
    PortsFit (eachChan f s) := hf _ _ (hf _ _ (hf _ _ (hf _ _ h)))

/-- Free places are spare (R160, R161). -/
theorem PortsFit.spare (h : PortsFit s) {n : Nat} (hn : n ≤ s.freePlaces c) :
    PortFits (owesCommit s.loader c) n (portView (s.ch c)) := by
  refine { h c with places := ?_ }
  have hplaces : (s.ch c).rep.queue.length + s.reserved c + 0 ≤ 8 := (h c).places
  show (s.ch c).rep.queue.length + s.reserved c + n ≤ 8
  unfold State.freePlaces at hn
  omega

theorem eventRoom_iff (s : State) (c : Chan) (n : Nat) :
    s.eventRoom c n = true ↔ n + 1 ≤ s.freePlaces c ∧ eventCount (s.ch c).rep.queue < 6 := by
  unfold State.eventRoom
  rw [Bool.and_eq_true, decide_eq_true_iff, decide_eq_true_iff]
  rfl

/-- An event is appended where there is room for it, and held otherwise (R170). -/
theorem PortsFit.raise (h : PortsFit s) (k : EventKind) (n : Nat) : PortsFit (raise c k n s) := by
  unfold Machine.raise
  split
  · next hroom =>
    obtain ⟨hplaces, hevents⟩ := (eventRoom_iff s c 0).1 hroom.2.2
    exact h.modCh ((h.spare hplaces).pushEvent hevents _)
  · exact h.modCh ((h c).withHeld (heldSound_joinHeld ..))

theorem PortsFit.raiseAll (h : PortsFit s) (k : EventKind) : PortsFit (raiseAll k s) :=
  h.eachChan fun _ _ h => h.raise _ _

theorem PortsFit.deliverHeld (h : PortsFit s) : PortsFit (deliverHeld c 0 s) := by
  rw [deliverHeld_eq]
  split
  · next hroom => exact h.setCh ((h.spare hroom.2.1).delivered hroom.2.2)
  · exact h

theorem PortsFit.offerRelay (h : PortsFit s) (bytes : List Byte) : PortsFit (offerRelay c bytes s) := by
  unfold Machine.offerRelay
  split
  · next hroom =>
    obtain ⟨hplaces, hevents⟩ := (eventRoom_iff s c 0).1 hroom
    exact h.modCh ((h.spare hplaces).pushEvent hevents _)
  · exact h.modCh (h c)

theorem PortsFit.reportWork (h : PortsFit s) : PortsFit (reportWork c s) := (h.modCh (h c).inserted).deliverHeld

theorem PortsFit.discardDirective (h : PortsFit s) (k : EventKind) : PortsFit (discardDirective c k s) :=
  PortsFit.raise (h.modCh (h c)) k _

/-- A directive joins a queue that holds fewer than 8 (R158). -/
theorem PortsFit.joinDirective (h : PortsFit s) (d : Directive) : PortsFit (joinDirective c d s) := by
  unfold Machine.joinDirective
  split
  · next hroom =>
    refine h.modCh { h c with directives := ?_ }
    show ((s.ch c).pku.dirQueue ++ [d]).length ≤ 8
    rw [List.length_append, List.length_singleton]
    exact hroom
  · exact h.discardDirective _

theorem PortsFit.checkLineOf (h : PortsFit s) (ws : List LineWord) : PortsFit (checkLineOf c ws s) := by
  unfold Machine.checkLineOf sortPacket
  split
  · split
    · exact h.joinDirective _
    · exact h.offerRelay _
  · exact h.discardDirective _

theorem PortsFit.familyChange (h : PortsFit s) (f : Family) : PortsFit (familyChange f c s) := by
  unfold Machine.familyChange
  split
  · exact h.raise _ _
  · exact h

theorem PortsFit.pulseNews (h : PortsFit s) (x : Rtu) (f : Family) : PortsFit (pulseNews x f s) := by
  unfold Machine.pulseNews
  split
  · exact h
  · split
    · exact h.raiseAll _
    · exact (h.raiseAll _).eachChan fun _ _ h => h.familyChange f

end

end Sys2Proof.Machine
end

section
/-! SUPPORT. What the receiver, the tracker, the engine and the Channel Controller leave of the report queues, the window lists and
the directive queues: at most events raised, and the answer of a HALT in the place kept for it (R132, R161, R170). -/

namespace Sys2Proof.Machine

open Sys2Proof

/-! ### The channel's own operations -/

theorem portView_receiverDropout (k : Nat) (cause : Cause) (ch : Channel) :
    portView (receiverDropout k cause ch) = portView ch := by
  rw [receiverDropout_eq]
  rfl

theorem portView_judgedDropouts (k : Nat) (good room : Bool) (ch : Channel) :
    portView (judgedDropouts k good room ch) = portView ch := by
  have hdrop : ∀ cause, portView (receiverDropout k cause (countDropout ch)) = portView ch := fun cause =>
    portView_receiverDropout k cause (countDropout ch)
  unfold judgedDropouts
  cases good <;> cases room
  · exact (portView_receiverDropout k .lost _).trans (hdrop .timing)
  · exact hdrop .timing
  · exact hdrop .lost
  · rfl

theorem portView_handOn (line : LineIn) (ch : Channel) : portView (handOn line ch) = portView ch := by
  unfold handOn
  split
  · rfl
  · split <;> rfl

/-- A line at its end reaches neither reports nor directives waiting (R17 to R23). -/
theorem portView_endLine (line : LineIn) (ch : Channel) : portView (endLine line ch) = portView ch := by
  have hreceived : portView (receiveLine line ch) = portView ch := by
    unfold receiveLine
    generalize assembleLine ch.recv.fieldStd line = words
    rfl
  unfold endLine
  split
  · exact portView_handOn line ch
  · split
    · generalize receiveLine line ch = x at hreceived ⊢
      split
      · rw [judgeLine_eq]
        exact (portView_judgedDropouts _ _ _ x).trans hreceived
      · exact hreceived
    · rfl

theorem portView_closeVote (ch : Channel) : portView (closeVote ch) = portView ch := by
  unfold closeVote
  dsimp only
  split <;> rfl

theorem portView_nextLine (w : TimingWord) (ch : Channel) : portView (nextLine w ch) = portView ch := by
  unfold nextLine voteAtLine
  split
  · rfl
  · split
    · exact portView_closeVote _
    · split
      · split
        · exact portView_closeVote (joinVote w.parity _)
        · rfl
      · rfl

theorem portView_trackFieldEnd (tables : Tables) (r : FieldRecord) (r1 r2 : Option FieldRecord) (ch : Channel) :
    portView (trackFieldEnd tables r r1 r2 ch).1 = portView ch := rfl

theorem portView_offerToRing (num k : Nat) (cause : Cause) (ch : Channel) :
    portView (offerToRing num k cause ch) = portView ch := by
  unfold offerToRing
  split <;> rfl

theorem portView_frameValuesInForce (n : Nat) (ch : Channel) : portView (frameValuesInForce n ch) = portView ch := by
  unfold frameValuesInForce
  split
  · split <;> rfl
  · rfl

theorem GrantMoves.portView {old new : Channel} (h : GrantMoves old new) : portView new = portView old := by
  rw [h.eq]
  rfl

section

variable {c : Chan} {s : State}

/-! ### The ring, the arbiter and a frame that ends -/

theorem portsStand_arbitrate (s : State) : PortsStand s (arbitrate s) :=
  ⟨(keepsDevice_arbitrate s).loader, fun e => (grantMoves_arbitrate s e).portView⟩

theorem portsStand_removeFromRing (c : Chan) (ring : List FieldRecord) (s : State) : PortsStand s (removeFromRing c ring s) :=
  PortsStand.trans (t := s.modCh c (withRing ring)) (portsStand_modCh rfl) (portsStand_of_chans rfl rfl)

theorem portsStand_abandonFrame (c : Chan) (s : State) : PortsStand s (abandonFrame c s) := by
  cases h : (s.ch c).engine with
  | none => rw [abandonFrame_none h]; exact .refl s
  | some f =>
    rw [abandonFrame_some h]
    exact PortsStand.trans (t := s.setCh c _) (portsStand_setCh (by rfl)) (portsStand_of_chans rfl rfl)

theorem portsStand_endFrame (c : Chan) (s : State) : PortsStand s (endFrame c s) := by
  obtain ⟨stats, track, burst, h⟩ := endFrame_eq c s
  rw [h]
  exact PortsStand.trans (t := s.setCh c _) (portsStand_setCh (by rfl)) (portsStand_of_chans rfl rfl)

theorem PortsFit.reclaim (h : PortsFit s) : PortsFit (reclaim c s) := by
  unfold Machine.reclaim
  split
  · split
    · exact h
    · have hremoved := fun ring => h.stand (portsStand_removeFromRing c ring s)
      dsimp only
      split
      · exact PortsFit.raise ((hremoved _).stand (portsStand_modCh rfl)) _ _
      · exact hremoved _
  · exact h

/-! ### The receiver and the tracker -/

theorem PortsFit.raiseTrackEvent (h : PortsFit s) (e : Option EventKind) (n : Nat) :
    PortsFit (raiseTrackEvent c e n s) := by
  unfold Machine.raiseTrackEvent
  split
  · exact h.raise _ _
  · exact h

theorem PortsFit.cadenceFieldEnd (h : PortsFit s) : PortsFit (cadenceFieldEnd c s) := by
  unfold Machine.cadenceFieldEnd
  split
  · exact h
  · exact (h.stand (portsStand_setCh (portView_trackFieldEnd ..))).raiseTrackEvent _ _

/-- The closing of a field raises the tracker's event at most (R14, R36, R79). -/
theorem PortsFit.closeField (h : PortsFit s) (line : LineIn) : PortsFit (closeField c line s) := by
  have hline : PortsFit (arbitrate (s.modCh c (endLine line))) :=
    (h.stand (portsStand_modCh (portView_endLine line _))).stand (portsStand_arbitrate _)
  obtain ⟨hidle, haccepted⟩ := fieldClosed_closeField c line (s := s) rfl
  cases hacc : ((arbitrate (s.modCh c (endLine line))).ch c).recv.accepted with
  | false => rw [hidle hacc]; exact hline
  | true =>
    obtain ⟨e, -, voted, ring, stats, -, rfl, -, -, hclosed, -⟩ := haccepted hacc
    rw [hclosed]
    exact (hline.stand (portsStand_setCh (by rfl))).cadenceFieldEnd

/-- A field start accepted raises the forced drop of a reclaim at most (R15, R34, R35, R45). -/
theorem PortsFit.acceptField (h : PortsFit s) (flywheel : Option Parity) : PortsFit (acceptField c flywheel s) := by
  unfold Machine.acceptField
  split
  · have hcounted : PortsStand s (s.modCh c fun ch => fieldValuesInForce (countAccepted flywheel.isSome ch)) :=
      portsStand_modCh rfl
    have happended : ∀ (num offset : Nat) (t : State), PortsFit t →
        PortsFit ((Machine.reclaim c t).modCh c fun ch => openImage num (appendRecord num offset flywheel ch)) :=
      fun num offset t ht => ht.reclaim.stand (portsStand_modCh rfl)
    dsimp only
    split
    · exact happended _ _ _ ((((h.stand hcounted).stand (portsStand_abandonFrame c _)).stand
        (portsStand_removeFromRing c [] _)).stand (portsStand_modCh rfl))
    · exact happended _ _ _ (h.stand hcounted)
  · exact h

theorem PortsFit.lineStart (h : PortsFit s) (w : TimingWord) (line : LineIn) : PortsFit (lineStart c w line s) := by
  have hbegun : ∀ (flywheel : Bool) (n : Nat) (t : State), PortsFit t → PortsFit (t.modCh c (beginField w flywheel n)) :=
    fun _ _ _ ht => ht.stand (portsStand_modCh rfl)
  unfold Machine.lineStart
  split
  · split
    · exact (hbegun _ _ _ h).acceptField none
    · exact h
  · split
    · exact ((hbegun _ _ _ h).raise _ _).acceptField none
    · exact h
  · split
    · exact (hbegun _ _ _ (h.closeField line)).acceptField none
    · split
      · exact (hbegun _ _ _ (h.closeField line)).acceptField _
      · exact ((h.stand (portsStand_modCh (portView_endLine line _))).stand (portsStand_arbitrate _)).stand
          (portsStand_modCh (portView_nextLine w _))

theorem PortsFit.lossWork (h : PortsFit s) : PortsFit (lossWork c s) := by
  have hdeclared : PortsFit (declareLoss c s) :=
    PortsFit.raise ((h.stand (portsStand_removeFromRing c _ s)).stand (portsStand_modCh rfl)) _ _
  unfold Machine.lossWork lossAdvance
  split
  · exact h
  · refine PortsFit.stand ?_ (portsStand_modCh rfl)
    dsimp only
    split
    · exact h
    · split
      · exact hdeclared
      · exact h.stand (portsStand_modCh rfl)

/-! ### Read bursts and the engine -/

theorem PortsFit.checkWord (h : PortsFit s) (slot : Fin 8) (k field num : Nat) (offer : Bool) (inhibited : Nat → Bool) (w : Nat) :
    PortsFit (checkWord c slot k field num offer inhibited s w) := by
  unfold Machine.checkWord
  split
  · exact h
  · next e _ =>
    have hcaptured : ∀ (t : State) (capture : ErrorCapture), PortsFit t → PortsFit { t with capture := capture } :=
      fun _ _ ht => ht.stand (portsStand_of_chans rfl rfl)
    split
    · exact h
    · have hsingle : PortsFit (Machine.raise c .eccSingle field (s.modCh c fun ch =>
          { ch with stats := { ch.stats with eccSingle := satAdd ch.stats.eccSingle 1 } })) :=
        PortsFit.raise (h.stand (portsStand_modCh rfl)) _ _
      unfold singleWord
      dsimp only
      split
      · exact hsingle
      · exact hcaptured _ _ hsingle
    · have hdouble : PortsFit (Machine.raise c .eccDouble field (s.modCh c fun ch =>
          { ch with stats := { ch.stats with eccDouble := satAdd ch.stats.eccDouble 1 } })) :=
        PortsFit.raise (h.stand (portsStand_modCh rfl)) _ _
      unfold doubleWord
      dsimp only
      split
      · exact (hcaptured _ _ hdouble).stand (portsStand_modCh (portView_offerToRing ..))
      · exact hcaptured _ _ hdouble

theorem PortsFit.readDelivered (h : PortsFit s) (slot : Fin 8) (k num : Nat) (live present : Bool) (strikes : List Strike)
    (read : List Nat) : PortsFit (readDelivered c slot k num live present strikes read s) := by
  have hchecked : PortsFit (checkLine c slot k num live present read (strikeLine c slot k strikes s)) :=
    List.foldlRecOn (motive := PortsFit) _ _ (h.stand (portsStand_of_chans rfl rfl)) fun _ hu w _ =>
      hu.checkWord _ _ _ _ _ _ w
  have hended : ∀ t : State, PortsFit t → PortsFit (forgetInhibit (freeArbiter t)) := fun _ ht =>
    ht.stand (portsStand_of_chans rfl rfl)
  unfold Machine.readDelivered handLine
  refine hended _ ?_
  split
  · exact hchecked.stand (portsStand_modCh rfl)
  · exact hchecked

theorem PortsFit.probeRow (h : PortsFit s) (f : Frame) (r : Nat) (b : Built) : PortsFit (probeRow c f r b s) := by
  unfold Machine.probeRow
  split
  · dsimp only
    split
    · exact PortsFit.raise (s := { s with probe := .captured _ _ }) h _ _
    · exact h
  · exact h
  · exact h

/-- A row built may raise PROBE_HIT; turns and grants raise nothing (R51, R85, R87, R175). -/
theorem PortsFit.pumpEngine (h : PortsFit s) : PortsFit (pumpEngine c s) := by
  refine pumpEngine_keeps (P := PortsFit) (fun t u ht hu => ?_) (fun t u ht hu => ?_)
    (fun t ht => ht.stand (portsStand_arbitrate t)) h
  · obtain ⟨f, sc, r, b, -, -, -, -, -, -, -, -, rfl⟩ := buildNext_cases hu
    exact (ht.stand (portsStand_modCh rfl)).probeRow f r b
  · obtain ⟨f, g, -, -, rfl⟩ := turnNext_cases hu
    exact ht.stand (portsStand_modCh rfl)

/-! ### The Channel Controller -/

theorem portsStand_takeCentre (c : Chan) (n : Nat) (s : State) : PortsStand s (takeCentre c n s) :=
  (PortsStand.trans (portsStand_modCh rfl) (portsStand_removeFromRing c _ _)).trans (portsStand_modCh rfl)

theorem PortsFit.schedule (h : PortsFit s) : PortsFit (schedule c s).1 := by
  unfold Machine.schedule
  split
  · unfold repeatCentre
    split
    · exact h
    · exact PortsFit.raise (h.stand (portsStand_modCh rfl)) _ _
  · exact h.stand (portsStand_takeCentre c _ s)
  · exact h.stand (portsStand_takeCentre c _ s)
  · dsimp only
    split
    · exact PortsFit.raise ((h.stand (portsStand_takeCentre c _ s)).stand (portsStand_modCh rfl)) _ _
    · exact h

theorem PortsFit.lossActionWork (h : PortsFit s) : PortsFit (lossActionWork c s).1 := by
  unfold Machine.lossActionWork
  split
  · exact h.stand (portsStand_modCh rfl)
  · exact h
  · exact h

theorem PortsFit.startingWork (h : PortsFit s) (enter : ChanState) : PortsFit (startingWork c enter s).1 := by
  unfold Machine.startingWork
  split
  · exact PortsFit.schedule (h.stand (portsStand_modCh rfl))
  · exact h

/-- The deferred HALT answer takes the place kept for it (R132, R161). -/
theorem PortsFit.completeHalt (h : PortsFit s) {r : HaltRecord} (hhalt : (s.ch c).ctl.halt = some r) (tag : Byte) :
    PortsFit (completeHalt c tag s) := by
  obtain ⟨stats, burst, hend⟩ := completeHalt_eq_setCh c tag s
  have hanswered := ((h c).halted (by show (s.ch c).ctl.halt.isSome = true; rw [hhalt]; rfl)).pushAnswer tag 5 .done none []
  rw [hend]
  exact PortsFit.stand (s := s.setCh c (haltedChannel tag stats (s.ch c))) (h.setCh hanswered) (portsStand_of_chans rfl rfl)

theorem PortsFit.chooseFrame (h : PortsFit s) (n : Nat) : PortsFit (chooseFrame c n s).1 := by
  unfold Machine.chooseFrame
  split
  · exact h
  · exact h.startingWork _
  · exact h.schedule
  · unfold haltingWork
    split
    · exact h
    · next r hhalt =>
      split
      · exact h.completeHalt hhalt _
      · unfold originWork
        split
        · exact h.schedule
        · exact h.startingWork _
        · exact h.lossActionWork
        · exact h
        · exact h
  · exact h.lossActionWork

theorem PortsFit.controlWork (h : PortsFit s) (n : Nat) : PortsFit (controlWork c n s) := by
  have hended := h.stand (portsStand_endFrame c s)
  unfold Machine.controlWork
  dsimp only
  split
  · exact PortsFit.pumpEngine (hended.stand (portsStand_modCh rfl))
  · exact PortsFit.pumpEngine (((hended.stand (portsStand_modCh (portView_frameValuesInForce n _))).chooseFrame n).stand
      (portsStand_modCh rfl))

end

end Sys2Proof.Machine
end

section
/-! SUPPORT. What directives, the loader, output frame starts and resets leave of the report queues, the window lists and the
directive queues (R145 to R152, R158 to R161, R165, R168), and with it every command. -/

namespace Sys2Proof.Machine

open Sys2Proof

/-! ### A directive and the place of its answer (R159 to R161) -/

/-- Every channel's places suffice, and channel `c` has one to spare for an answer (R160). -/
structure RoomToAnswer (c : Chan) (s : State) : Prop where
  fit   : PortsFit s
  spare : PortFits (owesCommit s.loader c) 1 (portView (s.ch c))

section

variable {c : Chan} {s t : State}

theorem RoomToAnswer.stand (h : RoomToAnswer c s) (k : PortsStand s t) : RoomToAnswer c t :=
  ⟨h.fit.stand k, by rw [k.loader, k.views]; exact h.spare⟩

theorem RoomToAnswer.setCh (h : RoomToAnswer c s) {x : Channel} (hx : PortFits (owesCommit s.loader c) 1 (portView x)) :
    RoomToAnswer c (s.setCh c x) :=
  ⟨h.fit.setCh (hx.mono id (Nat.zero_le 1)), by rw [State.ch_setCh_same]; exact hx⟩

/-- A load that owes no deferred answer (R145). -/
theorem PortFits.unowed {owed : Bool} {n : Nat} {v : PortView} (h : PortFits owed n v) : PortFits false n v :=
  h.mono (fun hf => absurd hf Bool.false_ne_true) (Nat.le_refl n)

theorem PortsFit.withLoad (h : PortsFit s) {l : LoadState} (hl : ∀ e, owesCommit l e = false) (sh : List Byte) :
    PortsFit { s with loader := l, shadow := sh } := fun e => by
  show PortFits (owesCommit l e) 0 _
  rw [hl]
  exact (h e).unowed

theorem RoomToAnswer.withLoad (h : RoomToAnswer c s) {l : LoadState} (hl : ∀ e, owesCommit l e = false) (sh : List Byte) :
    RoomToAnswer c { s with loader := l, shadow := sh } := by
  refine ⟨h.fit.withLoad hl sh, ?_⟩
  show PortFits (owesCommit l c) 1 _
  rw [hl]
  exact h.spare.unowed

/-- The answer takes the spare place (R160). -/
theorem RoomToAnswer.answer (h : RoomToAnswer c s) {tag kind : Byte} {code : AnswerCode} {r : Option Reason}
    {data : List Byte} : PortsFit (answer c tag kind code r data s) :=
  h.fit.modCh (h.spare.pushAnswer tag kind code r data)

end

section

variable {c : Chan} {s : State} (h : RoomToAnswer c s) (n : Nat) (d : Directive)

include h

theorem RoomToAnswer.doSetFormat : PortsFit (doSetFormat c n d s) := by
  unfold Machine.doSetFormat
  split
  · exact RoomToAnswer.answer (h.stand (portsStand_modCh rfl))
  · exact h.answer
  · exact h.answer

/-- The delivery behind a mask change leaves the answer its place (R171). -/
theorem RoomToAnswer.doSetParameters : PortsFit (doSetParameters c n d s) := by
  cases hparams : parametersOf? d.payload with
  | none =>
    unfold Machine.doSetParameters
    rw [hparams]
    exact h.answer
  | some x =>
    obtain ⟨f, fr, mask⟩ := x
    rw [doSetParameters_some hparams]
    refine RoomToAnswer.answer (h.setCh ?_)
    have hmasked : ∀ {k : Nat}, PortFits (owesCommit s.loader c) k (portView (s.ch c)) → PortFits (owesCommit s.loader c) k
        { portView (s.ch c) with rep := { (s.ch c).rep with mask := mask } } := fun hk => { hk with }
    show PortFits _ 1 { portView (s.ch c) with rep := remaskedPort (s.ch c).rep mask _ }
    unfold remaskedPort
    split
    · next hroom => exact (hmasked (h.fit.spare hroom.2.1)).delivered hroom.2.2
    · exact hmasked h.spare

theorem RoomToAnswer.doStart : PortsFit (doStart c d s) := by
  unfold Machine.doStart
  split
  · split
    · exact RoomToAnswer.answer (h.stand (portsStand_modCh rfl))
    · exact h.answer
  · exact h.answer

/-- HALT answers, or keeps the place for its deferred answer (R131, R161). -/
theorem RoomToAnswer.doHalt : PortsFit (doHalt c n d s) := by
  by_cases hstate : (s.ch c).ctl.state = .stopped ∨ (s.ch c).ctl.state = .halting
  · rw [doHalt_answers hstate]
    exact h.answer
  · rw [doHalt_enters hstate]
    exact h.fit.modCh (h.spare.halting _)

theorem RoomToAnswer.doReadStats : PortsFit (doReadStats c d s) := by
  unfold Machine.doReadStats
  split
  · exact RoomToAnswer.answer (h.stand (portsStand_modCh rfl))
  · exact h.answer

theorem RoomToAnswer.doProbe : PortsFit (doProbe c d s) :=
  RoomToAnswer.answer (h.setCh (x := clearHeld (s.ch c)) (h.spare.withHeld heldSound_empty))

theorem RoomToAnswer.doLoadBegin : PortsFit (doLoadBegin c d s) := by
  unfold Machine.doLoadBegin
  split
  · exact h.answer
  · split
    · exact h.answer
    · exact RoomToAnswer.answer (h.withLoad (fun _ => rfl) _)
  · exact h.answer
  · exact h.answer

theorem RoomToAnswer.doLoadSegment : PortsFit (doLoadSegment c d s) := by
  unfold Machine.doLoadSegment
  split
  · exact h.answer
  · exact h.answer
  · dsimp only
    split
    · exact h.answer
    · split
      · exact RoomToAnswer.answer (h.withLoad (fun _ => rfl) _)
      · exact h.answer

/-- LOAD COMMIT answers, or keeps the place for its deferred answer (R148, R161). -/
theorem RoomToAnswer.doLoadCommit : PortsFit (doLoadCommit c n d s) := by
  unfold Machine.doLoadCommit
  split
  · exact h.answer
  · exact h.answer
  · next owner e got _ _ =>
    split
    · exact h.answer
    · next howner =>
      split
      · exact h.answer
      · split
        · exact RoomToAnswer.answer (h.withLoad (fun _ => rfl) _)
        · intro x
          by_cases hx : x = c
          · subst hx
            exact h.spare.committing.mono (fun _ => rfl) (Nat.le_refl 0)
          · refine (h.fit x).mono (fun he => ?_) (Nat.le_refl 0)
            exact absurd ((of_decide_eq_true he).symm.trans (not_not.1 howner)) hx

theorem RoomToAnswer.doLoadAbort : PortsFit (doLoadAbort c d s) := by
  unfold Machine.doLoadAbort
  split
  · exact h.answer
  · exact h.answer
  · split
    · exact RoomToAnswer.answer (h.withLoad (fun _ => rfl) _)
    · exact h.answer

theorem RoomToAnswer.doReadTable : PortsFit (doReadTable c d s) := by
  unfold Machine.doReadTable
  split
  · exact h.answer
  · dsimp only
    split <;> exact h.answer

theorem RoomToAnswer.doSetDeviceOptions : PortsFit (doSetDeviceOptions c d s) := by
  have hset : ∀ v, RoomToAnswer c (setInhibit v s) := fun v => h.stand (portsStand_of_chans rfl rfl)
  unfold Machine.doSetDeviceOptions
  split
  · exact RoomToAnswer.answer (hset _)
  · exact RoomToAnswer.answer (hset _)
  · exact h.answer

theorem RoomToAnswer.doArmProbe : PortsFit (doArmProbe c d s) := by
  have harmed : ∀ p, RoomToAnswer c { s with probe := p } := fun p => h.stand (portsStand_of_chans rfl rfl)
  unfold Machine.doArmProbe
  split
  · exact h.answer
  · split
    · exact RoomToAnswer.answer (harmed _)
    · exact h.answer

omit h in
/-- The answers of a RESET CHANNEL: those it owed, and its own (R161). -/
theorem length_resetAnswers (c : Chan) (r : Option HaltRecord) (l : LoadState) (d : Directive) :
    (resetAnswers c r l d).length = (if r.isSome then 1 else 0) + (if owesCommit l c then 1 else 0) + 1 := by
  have hcommit : (abortedCommit c l).length = if owesCommit l c then 1 else 0 := by
    cases l with
    | idle | loading => rfl
    | commitPending owner e tag start =>
      unfold abortedCommit owesCommit
      by_cases howner : owner = c <;> simp [howner]
  unfold resetAnswers
  rw [List.length_append, List.length_append, hcommit]
  cases r <;> rfl

omit h in
theorem eventCount_resetAnswers (c : Chan) (r : Option HaltRecord) (l : LoadState) (d : Directive) :
    eventCount (resetAnswers c r l d) = 0 := by
  have hcommit : eventCount (abortedCommit c l) = 0 := by
    cases l with
    | idle | loading => rfl
    | commitPending owner e tag start =>
      unfold abortedCommit
      dsimp only
      split <;> rfl
  unfold resetAnswers
  rw [eventCount_append, eventCount_append, hcommit]
  cases r <;> rfl

omit h in
/-- The owner of a committed load owns the load. -/
theorem ownsLoad_of_owesCommit {l : LoadState} {c : Chan} (h : owesCommit l c = true) : ownsLoad c l = true := by
  cases l with
  | idle | loading => cases h
  | commitPending => exact h

omit h in
/-- A load ended by its owner's reset is owed to no channel, and else as before. -/
theorem owesCommit_reset {l : LoadState} {c e : Chan}
    (h : owesCommit (if ownsLoad c l then .idle else l) e = true) : owesCommit l e = true ∧ e ≠ c := by
  split at h
  · cases h
  · next hown => exact ⟨h, fun he => hown (ownsLoad_of_owesCommit (he ▸ h))⟩

omit h in
/-- Answers owed and given take the places kept for them and the spare one; the event of an abandoned load is appended where there
is room (R152, R161). -/
theorem PortFits.reset {owed : Bool} {v : PortView} {answers : List Report} (hv : PortFits owed 1 v)
    (hlength : answers.length = (if v.halt.isSome then 1 else 0) + (if owed then 1 else 0) + 1)
    (hanswers : eventCount answers = 0) (owned : Bool) :
    PortFits false 0 { v with rep := resetPort owned answers v.rep, halt := none } := by
  have hplaces := hv.places
  have hevents : eventCount (v.rep.queue ++ answers) ≤ 6 := by
    rw [eventCount_append, hanswers]
    exact hv.events
  have hanswered : PortFits false 0 { v with
      rep := { v.rep with queue := v.rep.queue ++ answers, held := emptyHeld }, halt := none } := by
    refine { hv with places := ?_, events := hevents, held := heldSound_empty }
    dsimp only
    rw [List.length_append, hlength, Option.isSome_none, if_neg Bool.false_ne_true]
    omega
  unfold resetPort raisedPort
  cases owned with
  | false => exact hanswered
  | true =>
    dsimp only
    rw [if_pos rfl]
    split
    · next hroom =>
      obtain ⟨-, hlength, hcount⟩ := hroom
      have hspare : PortFits false 1 { v with
          rep := { v.rep with queue := v.rep.queue ++ answers, held := emptyHeld }, halt := none } :=
        { hanswered with places := hlength }
      exact hspare.pushEvent hcount _
    · exact hanswered.withHeld ⟨fun hnone => absurd hnone (kindSet_ne_zero _), fun _ => ⟨Nat.le_refl 1, by decide⟩⟩

theorem RoomToAnswer.doResetChannel : PortsFit (doResetChannel c d s) := by
  have hlength := length_resetAnswers c (s.ch c).ctl.halt s.loader d
  have hreset := h.spare.reset hlength (eventCount_resetAnswers c _ s.loader d) (ownsLoad c s.loader)
  rw [doResetChannel_eq]
  intro e
  by_cases he : e = c
  · subst he
    refine PortFits.mono (owed := false) ?_ (fun howed => absurd rfl (owesCommit_reset howed).2) (Nat.le_refl 0)
    show PortFits _ 0 (portView ((s.setCh e _).ch e))
    rw [State.ch_setCh_same]
    exact hreset
  · refine PortFits.mono ?_ (fun howed => (owesCommit_reset howed).1) (Nat.le_refl 0)
    show PortFits _ 0 (portView ((s.setCh c _).ch e))
    rw [State.ch_setCh_ne _ he]
    exact h.fit e

end

/-- One RESTART event, with empty window list, held status and directive queue, and no answer owed (R158, R176, R177). -/
theorem portFits_restarted (mask : BitVec 16) : PortFits false 0 ⟨⟨[restartEvent], [], emptyHeld, mask⟩, none, []⟩ where
  places     := (by decide : 1 + (0 + 0) + 0 ≤ 8)
  events     := (by decide : 1 ≤ 6)
  window     := Nat.zero_le 4
  directives := Nat.zero_le 8
  held       := heldSound_empty

/-- A device restart leaves one RESTART event on every channel (R165, R176). -/
theorem portsFit_deviceRestart (s : State) : PortsFit (deviceRestart s) := fun c => by
  rw [deviceRestart_ch]
  exact portFits_restarted (s.ch c).rep.mask

theorem RoomToAnswer.carryOutKind {c : Chan} {s : State} (h : RoomToAnswer c s) (k : DirKind) (n : Nat) (d : Directive) :
    PortsFit (carryOutKind k c n d s) := by
  cases k with
  | probe => exact h.doProbe d
  | setFormat => exact h.doSetFormat n d
  | setParameters => exact h.doSetParameters n d
  | start => exact h.doStart d
  | halt => exact h.doHalt n d
  | resetChannel => exact h.doResetChannel d
  | readStats => exact h.doReadStats d
  | loadBegin => exact h.doLoadBegin d
  | loadSegment => exact h.doLoadSegment d
  | loadCommit => exact h.doLoadCommit n d
  | loadAbort => exact h.doLoadAbort d
  | readTable => exact h.doReadTable d
  | deviceStatus => exact h.answer
  | clearErrors => exact RoomToAnswer.answer (h.stand (portsStand_of_chans (t := { s with capture := ErrorCapture.clear }) rfl rfl))
  | setDeviceOptions => exact h.doSetDeviceOptions d
  | armProbe => exact h.doArmProbe d
  | readProbe => exact h.answer
  | restartDevice => exact portsFit_deviceRestart s

theorem RoomToAnswer.carryOut {c : Chan} {s : State} (h : RoomToAnswer c s) (n : Nat) (d : Directive) :
    PortsFit (carryOut c n d s) := by
  unfold Machine.carryOut
  split
  · exact h.answer
  · split
    · exact h.answer
    · exact h.carryOutKind _ n d

/-- RESTART DEVICE has no arguments, and so is never refused (R160, R162, R165). -/
theorem carryOut_restartDevice {c : Chan} {n : Nat} {d : Directive} {s : State} (h : dirKind? d.kind = some .restartDevice) :
    carryOut c n d s = deviceRestart s := carryOut_known h (Nat.zero_le _)

section

variable {c : Chan} {s : State}

/-- A directive is taken where its answer has a place, and RESTART DEVICE without one (R159). -/
theorem PortsFit.takeNext (h : PortsFit s) (n : Nat) : PortsFit (takeNext c n s) := by
  unfold Machine.takeNext
  split
  · exact h
  · next d rest hqueue =>
    split
    · exact h
    · split
      · next htaken =>
        rcases htaken with hrestart | hplace
        · rw [carryOut_restartDevice hrestart]
          exact portsFit_deviceRestart _
        · have hspare : PortFits (owesCommit s.loader c) 1 (portView (leaveQueue rest (s.ch c))) :=
            (h.spare hplace).taken hqueue
          refine RoomToAnswer.carryOut ⟨h.modCh (hspare.mono id (Nat.zero_le 1)), ?_⟩ n d
          rw [State.ch_modCh_same]
          exact hspare
      · exact h.stand (portsStand_modCh rfl)

theorem PortsFit.takeKind (h : PortsFit s) (k : Option DirKind) : PortsFit (takeKind c k s) := by
  unfold Machine.takeKind
  split
  · exact h
  · split
    · exact h.takeNext _
    · exact h

/-! ### The loader (R150, R152) -/

theorem PortsFit.handSwap (h : PortsFit s) (n : Nat) (e : TableEntry) (image : List Byte) : PortsFit (handSwap n e image c s) := by
  cases e with
  | coef i => exact h.modCh (h c)
  | curve i => exact h.modCh (h c)
  | pattern i =>
    have htracked : ∀ k : Track, PortsFit (s.setCh c { s.ch c with cad := { (s.ch c).cad with track := k } }) := fun k =>
      h.stand (portsStand_setCh rfl)
    show PortsFit (swapTracker i c s)
    unfold swapTracker
    dsimp only
    split
    · exact PortsFit.raise ((htracked _).stand (portsStand_modCh rfl)) _ _
    · exact htracked _

/-- The deferred LOAD COMMIT answer takes the place kept for it (R150, R161). -/
theorem PortsFit.swapTable (h : PortsFit s) {owner : Chan} {e : TableEntry} {tag : Byte} {start : Nat}
    (hload : s.loader = .commitPending owner e tag start) (n : Nat) : PortsFit (swapTable n owner e tag s) := by
  have hhanded : PortsFit (Machine.eachChan (Machine.handSwap n e s.shadow) { s with tables := setTableImage s.tables e s.shadow }) :=
    PortsFit.eachChan (fun _ _ hu => hu.handSwap n e s.shadow) (h.stand (portsStand_of_chans rfl rfl))
  have hloader := (keepsDevice_eachChan (keepsDevice_handSwap n e s.shadow)
    { s with tables := setTableImage s.tables e s.shadow }).loader.trans hload
  unfold Machine.swapTable
  dsimp only
  generalize Machine.eachChan (Machine.handSwap n e s.shadow) { s with tables := setTableImage s.tables e s.shadow } = u
    at hhanded hloader
  have howner := hhanded owner
  rw [hloader, show owesCommit (.commitPending owner e tag start) owner = true from decide_eq_true rfl] at howner
  exact RoomToAnswer.answer (c := owner) ⟨hhanded.withLoad (l := .idle) (fun _ => rfl) [], howner.committed⟩

theorem PortsFit.loaderWork (h : PortsFit s) (n : Nat) : PortsFit (loaderWork n s) := by
  unfold Machine.loaderWork
  split
  · exact h
  · refine PortsFit.stand (s := loaderAdvance n s) ?_ (portsStand_of_chans rfl rfl)
    unfold loaderAdvance
    split
    · exact h
    · split
      · exact PortsFit.raise (h.withLoad (l := .idle) (fun _ => rfl) []) _ _
      · exact h.withLoad (fun _ => rfl) s.shadow
    · next hload =>
      split
      · exact h.swapTable hload n
      · exact h

/-! ### Output frame starts (R120) -/

theorem PortsFit.issueStart (h : PortsFit s) {news : State → State} (hnews : ∀ u, PortsFit u → PortsFit (news u))
    (order : List StartWork) : PortsFit (issueStart news order s) := by
  refine issueStart_keeps (P := PortsFit) (h.stand (portsStand_of_chans rfl rfl)) (fun u w hu => ?_) (fun u hu => ?_)
  · cases w with
    | announce => exact hnews u hu
    | loader => exact hu.loaderWork _
    | control c => exact hu.controlWork _
    | loss c => exact hu.lossWork
    | report c => exact hu.reportWork
    | packet c => exact hu.takeNext _
  · have hforgotten := hu.eachChan (f := fun c t => t.modCh c fun ch =>
      { ch with pku := { ch.pku with taken := 0 }, lossDone := false, haltDone := false })
      fun _ _ ht => ht.stand (portsStand_modCh rfl)
    exact hforgotten.stand (portsStand_of_chans rfl rfl)

theorem IssuesStart.portsFit {s t : State} (h : IssuesStart s t) (hs : PortsFit s) : PortsFit t := by
  have hissued : ∀ {u : State} {news : State → State} {order : List StartWork}, PortsStand s u →
      (∀ v, PortsFit v → PortsFit (news v)) → PortsFit (Machine.issueStart news order u) := fun hu hnews =>
    (hs.stand hu).issueStart hnews _
  cases h with
  | pulse dt f order h => exact h ▸ hissued (portsStand_of_chans rfl rfl) fun _ hv => hv.pulseNews _ _
  | timeout order h => exact h ▸ hissued (portsStand_of_chans rfl rfl) fun _ hv => hv.raiseAll _
  | expiry order h => exact h ▸ hissued (portsStand_of_chans rfl rfl) fun _ hv => hv
  | idle h => exact h ▸ hs

end

/-! ### Line periods, and commands -/

theorem PortFits.linePeriod {owed : Bool} {ch : Channel} (h : PortFits owed 0 (portView ch)) (device : BitVec 4)
    (sc : ScalerFrame) : PortFits owed 0 (portView (linePeriod device sc ch)) := by
  have hactive : ∀ y, portView (activePeriod sc y ch) = portView ch := fun y => by
    unfold activePeriod
    split
    · rfl
    · split <;> rfl
  unfold Machine.linePeriod
  split
  · exact h.sent device
  · split
    · rw [hactive]; exact h
    · exact h

theorem PortFits.endedPeriod {owed : Bool} {ch : Channel} (h : PortFits owed 0 (portView ch)) (device : BitVec 4)
    (x : EndedFrame) : PortFits owed 0 (portView (endedPeriod device x ch)) := by
  unfold Machine.endedPeriod
  dsimp only
  split
  · exact h.sent device
  · split <;> exact h

section

variable {s t : State}

theorem PortsFit.execOutputLinePeriod (hs : PortsFit s) {c : Chan} (h : execOutputLinePeriod c s = .next t) : PortsFit t := by
  unfold Machine.execOutputLinePeriod at h
  split at h <;> cases h
  · exact PortsFit.pumpEngine (hs.modCh ((hs c).linePeriod _ _))
  · exact hs.modCh ((hs c).endedPeriod _ _)
  · exact hs

theorem PortsFit.execTimingWord (hs : PortsFit s) {c : Chan} {dt : Nat} {w : TimingWord} {line : LineIn}
    (h : execTimingWord c dt w line s = .next t) : PortsFit t := by
  cases h
  have hclear : portView (clearLossCount w (s.ch c)) = portView (s.ch c) := by
    unfold clearLossCount
    split <;> rfl
  have htimed : PortsFit { s with now := s.now + dt } := hs.stand (portsStand_of_chans rfl rfl)
  exact (htimed.stand (portsStand_modCh hclear)).lineStart w line

theorem PortsFit.execControlPacket (hs : PortsFit s) {c : Chan} (h : execControlPacket c s = .next t) : PortsFit t := by
  unfold Machine.execControlPacket at h
  split at h <;> cases h
  · exact hs
  · exact (hs.stand (portsStand_modCh rfl)).checkLineOf _

theorem PortsFit.execWriteBurstComplete (hs : PortsFit s) (h : execWriteBurstComplete s = .next t) : PortsFit t := by
  unfold Machine.execWriteBurstComplete at h
  split at h <;> cases h
  · next c slot k words _ =>
    have hfreed : PortsFit (freeArbiter (writeLine c slot k words s)) := hs.stand (portsStand_of_chans rfl rfl)
    exact hfreed.stand (portsStand_arbitrate _)
  · exact hs

theorem PortsFit.execReadBurstComplete (hs : PortsFit s) {line : LineRead} (h : execReadBurstComplete line s = .next t) :
    PortsFit t := by
  unfold Machine.execReadBurstComplete at h
  split at h <;> cases h
  · exact (hs.readDelivered _ _ _ _ _ _ _).pumpEngine
  · exact hs

theorem PortsFit.execInputLoss (hs : PortsFit s) {c : Chan} (h : execInputLoss c s = .next t) : PortsFit t := by
  unfold Machine.execInputLoss at h
  split at h <;> cases h
  · exact hs.lossWork
  · exact hs

theorem PortsFit.execLoadAbandoned (hs : PortsFit s) (h : execLoadAbandoned s = .next t) : PortsFit t := by
  unfold Machine.execLoadAbandoned at h
  split at h
  · split at h <;> cases h
    · exact hs.loaderWork _
    · exact hs
  · cases h; exact hs

theorem PortsFit.execTableSwap (hs : PortsFit s) (h : execTableSwap s = .next t) : PortsFit t := by
  unfold Machine.execTableSwap at h
  split at h
  · split at h <;> cases h
    · exact hs.loaderWork _
    · exact hs
  · cases h; exact hs

theorem PortsFit.execHaltComplete (hs : PortsFit s) {c : Chan} (h : execHaltComplete c s = .next t) : PortsFit t := by
  unfold Machine.execHaltComplete at h
  split at h
  · next r _ hhalt =>
    split at h <;> cases h
    · have hforced : PortsStand s (s.modCh c (frameValuesInForce (s.startNo + 1))) :=
        portsStand_modCh (portView_frameValuesInForce _ _)
      have howed : ((s.modCh c (frameValuesInForce (s.startNo + 1))).ch c).ctl.halt = some r :=
        (congrArg PortView.halt (hforced.views c)).trans hhalt
      exact ((hs.stand hforced).completeHalt howed r.tag).stand (portsStand_modCh rfl)
    · exact hs
  · cases h; exact hs

/-- A reset of the whole part leaves one RESTART event on every channel (R176, R177). -/
theorem portsFit_of_reset (hload : t.loader = .idle) (hch : ∀ c, portView (t.ch c) = portView Channel.reset) : PortsFit t :=
  fun c => by
    rw [hload, hch]
    exact portFits_restarted defaultMask

/-- Every command keeps every channel within its places. -/
theorem exec_portsFit {i : Instr} (hs : PortsFit s) (h : exec i s = .next t) : PortsFit t := by
  have htaken : ∀ {c : Chan} {k : Option DirKind},
      (.next (takeKind c k s) : Host.Outcome State Fault Refusal) = .next t → PortsFit t := fun h => by
    cases h; exact hs.takeKind _
  cases i with
  | powerOnReset straps found errs => cases h; exact portsFit_of_reset rfl fun c => by cases c <;> rfl
  | pinReset straps => cases h; exact portsFit_of_reset rfl fun c => by cases c <;> rfl
  | timingWord c dt w line => exact hs.execTimingWord h
  | controlPacket c => exact hs.execControlPacket h
  | writeBurstComplete => exact hs.execWriteBurstComplete h
  | readBurstComplete line => exact hs.execReadBurstComplete h
  | referencePulse dt f order => cases h; exact (IssuesStart.pulse dt f order rfl).portsFit hs
  | refLossTimeout order => exact (issuesStart_execRefLossTimeout h).portsFit hs
  | freeRunExpiry order => exact (issuesStart_execFreeRunExpiry h).portsFit hs
  | inputLoss c => exact hs.execInputLoss h
  | loadAbandoned => exact hs.execLoadAbandoned h
  | tableSwap => exact hs.execTableSwap h
  | haltComplete c => exact hs.execHaltComplete h
  | outputLinePeriod c => exact hs.execOutputLinePeriod h
  | restartDevice c | probe c | setFormat c | setParameters c | start c | halt c | resetChannel c | readStats c
  | loadBegin c | loadSegment c | loadCommit c | loadAbort c | readTable c | deviceStatus c | clearErrors c
  | setDeviceOptions c | armProbe c | readProbe c | unknownKind c => exact htaken h

end

/-- Settles O54: a step is the front command, and every command keeps every channel within its places. -/
theorem queuesStayWithinTheirPlaces : Obligations.QueuesStayWithinTheirPlaces := by
  intro s t hqueues hheld h
  have hs : PortsFit s := (portsFit_iff s).1 ⟨hqueues, hheld⟩
  refine (portsFit_iff t).2 ?_
  unfold step at h
  split at h
  · cases h; exact hs
  · next i rest _ => exact exec_portsFit (s := { s with pending := rest }) hs h

end Sys2Proof.Machine
end

section
/-! SUPPORT. PROBE, READ STATS, DEVICE STATUS, READ PROBE and ARM PROBE (R162 to R164, R173, R174, R176). -/

namespace Sys2Proof.Machine

open Sys2Proof

/-! ### Bytes of numbers -/

/-- A byte holds a number's remainder. -/
theorem byteOf_mod (n : Nat) : BitVec.ofNat 8 (n % 256) = BitVec.ofNat 8 n :=
  BitVec.eq_of_toNat_eq (by simp)

/-- Two bytes, as numbers. -/
theorem bytes2_eq_map (n : Nat) : bytes2 n = [n % 256, n / 256 % 256].map (BitVec.ofNat 8) := by
  simp [bytes2, byteOf, byteOf_mod]

/-- A byte of its own number. -/
theorem byteOf_toNat (b : Byte) : BitVec.ofNat 8 b.toNat = b := by simp

/-- An address of four bits as a byte. -/
theorem zeroExtend_eq_ofNat (a : BitVec 4) : a.zeroExtend 8 = BitVec.ofNat 8 a.toNat :=
  BitVec.eq_of_toNat_eq (by simp)

/-- A flag byte. -/
theorem flagByte_eq (b : Bool) : (if b then 1 else 0 : Byte) = BitVec.ofNat 8 (if b then 1 else 0) := by cases b <;> rfl

/-- A payload's first number is not 0 exactly when its first byte is not. -/
theorem arg1_ne_zero_iff (p : List Byte) : arg1 p 0 ≠ 0 ↔ ¬ p.getD 0 0 = 0 := not_congr (BitVec.toNat_inj (y := 0#8))

/-! ### PROBE and READ STATS -/

/-- Settles O7: the parts of the answer are opened, and the held status is emptied behind them. -/
theorem probeResult : Obligations.ProbeResult := by
  intro c s d rest htake
  refine ⟨chanStateCode (s.ch c).ctl.state, trackCode (trackName (s.ch c).cad.track),
    ((trackPattern (s.ch c).cad.track).getD (255, 255)).1, ((trackPattern (s.ch c).cad.track).getD (255, 255)).2,
    _, ?_, ?_, ?_, rfl, ?_⟩
  · cases (s.ch c).ctl.state <;> rfl
  · cases (s.ch c).cad.track <;> rfl
  · rcases (s.ch c).cad.track with (_ | x) | _ | _ <;> rfl
  · refine (exec_directiveRow_takeable htake (k := .probe) rfl (Nat.zero_le _)).trans (congrArg Host.Outcome.next ?_)
    have hpattern : patternBytes (s.ch c).cad.track =
        [byteOf ((trackPattern (s.ch c).cad.track).getD (255, 255)).1,
          byteOf ((trackPattern (s.ch c).cad.track).getD (255, 255)).2] := by
      unfold patternBytes
      cases trackPattern (s.ch c).cad.track <;> rfl
    have hpresent : presenceByte (s.ch c) = byteOf ((if (s.ch c).ctl.lastOutput = none then 0 else 1) +
        (if (s.ch c).recv.latestOffset = none then 0 else 2)) := by
      unfold presenceByte
      cases (s.ch c).ctl.lastOutput <;> cases (s.ch c).recv.latestOffset <;> rfl
    have hdata : probeData (withTaken rest (s.ch c)) = probeData (s.ch c) := rfl
    show doProbe c d (s.setCh c (withTaken rest (s.ch c))) = _
    unfold doProbe answerDone
    rw [State.modCh_setCh, State.ch_setCh_same, answer_setCh, hdata]
    unfold probeData
    rw [hpattern, hpresent]
    rfl

/-- The fifteen values as bytes, in the order of R173. -/
theorem flatMap_statsList (x : Stats) : (statsList x).flatMap bytes2 =
    bytes2 x.fieldsReceived ++ bytes2 x.fieldsDropped ++ bytes2 x.fieldsRepeated ++ bytes2 x.dropoutLines
      ++ bytes2 x.damagedFields ++ bytes2 x.parityDisputes ++ bytes2 x.flywheelStarts ++ bytes2 x.cadenceLocks
      ++ bytes2 x.cadenceLosses ++ bytes2 x.eccSingle ++ bytes2 x.eccDouble ++ bytes2 x.directivesDiscarded
      ++ bytes2 x.relaysDiscarded ++ bytes2 x.readUnderruns ++ bytes2 x.fallbackLastField := by
  simp only [statsList, List.flatMap_cons, List.flatMap_nil, List.append_assoc, List.append_nil]

/-- Settles O14: the answer holds the values as they were, and the clear flag sets them to 0 behind it. -/
theorem readStatsResult : Obligations.ReadStatsResult := by
  intro c s d rest htake
  refine (exec_directiveRow_takeable htake (k := .readStats) rfl (Nat.le_refl _)).trans (congrArg Host.Outcome.next ?_)
  show doReadStats c d (s.setCh c (withTaken rest (s.ch c))) = _
  unfold doReadStats answerDone
  rw [State.ch_setCh_same, State.modCh_setCh, flatMap_statsList]
  by_cases hflag : d.payload.getD 0 0 = 0
  · rw [if_neg (mt (arg1_ne_zero_iff _).1 (not_not.2 hflag)), if_pos hflag, answer_setCh]
    rfl
  · rw [if_pos ((arg1_ne_zero_iff _).2 hflag), if_neg hflag, answer_setCh]
    rfl

/-! ### DEVICE STATUS -/

/-- The numbers of the load state in DEVICE STATUS (R176). -/
def loadStatusNumbers : LoadState → List Nat
  | .idle => [0, 0, 0, 0, 0, 0, 0, 0]
  | .loading o e got idleCount =>
    [1, chanNat o, tableCode e, entryNumber e, got % 256, got / 256 % 256, idleCount % 256, 0]
  | .commitPending o e tag _ => [2, chanNat o, tableCode e, entryNumber e, 0, 0, 0, tag.toNat]

/-- The load state's bytes are those of its numbers. -/
theorem loadStatusBytes_eq (l : LoadState) : loadStatusBytes l = (loadStatusNumbers l).map (BitVec.ofNat 8) := by
  cases l with
  | idle => rfl
  | loading o e got idleCount => simp [loadStatusBytes, loadStatusNumbers, bytes2, byteOf, byteOf_mod]
  | commitPending o e tag n => simp [loadStatusBytes, loadStatusNumbers, byteOf]

/-- Settles O21: the load's part is chosen by the load state, the other bytes are opened one by one. -/
theorem deviceStatusResult : Obligations.DeviceStatusResult := by
  intro c s d rest htake
  refine ⟨loadStatusNumbers s.loader, ?_, fun h => by rw [h]; rfl, fun o e got n h => by rw [h]; rfl,
    fun o e tag n h => by rw [h]; rfl, ?_⟩
  · cases s.loader <;> rfl
  · refine (exec_directiveRow_takeable htake (k := .deviceStatus) rfl (Nat.zero_le _)).trans (congrArg Host.Outcome.next ?_)
    refine (answer_withTaken ..).trans (congrArg (fun l => answeredState c rest d .done none l s) ?_)
    show deviceStatusData s = _
    unfold deviceStatusData captureBytes
    rw [loadStatusBytes_eq, bytes2_eq_map, zeroExtend_eq_ofNat, flagByte_eq]
    simp only [List.map_append, List.map_cons, List.map_nil, List.append_assoc, List.cons_append, List.nil_append, byteOf_toNat]
    rfl

/-! ### READ PROBE -/

/-- The numbers of an arm record in READ PROBE (R164). -/
def armNumbers (a : Arm) : List Nat :=
  [chanNat a.chan, a.row % 256, a.row / 256 % 256, a.column % 256, a.column / 256 % 256, conditionCode a.cond,
    a.m % 256, a.m / 256 % 256]

/-- The numbers of a capture record in READ PROBE (R164). -/
def captureNumbers (x : Account) : List Nat :=
  [x.field % 256, x.field / 256 % 256, x.field / 65536 % 256, x.field / 16777216 % 256, modeCode x.mode,
    x.s % 256, x.s / 256 % 256, x.t.getD 0 % 256, x.t.getD 0 / 256 % 256, if x.t.isSome then 1 else 0,
    x.m % 256, x.m / 256 % 256, x.w % 256, x.o % 256, x.o / 256 % 256, trackCode x.track]

theorem armBytes_eq (a : Arm) : armBytes a = (armNumbers a).map (BitVec.ofNat 8) := by
  simp [armBytes, armNumbers, bytes2, byteOf, byteOf_mod]

theorem captureRecordBytes_eq (x : Account) : captureRecordBytes x = (captureNumbers x).map (BitVec.ofNat 8) := by
  unfold captureRecordBytes captureNumbers
  rw [flagByte_eq]
  simp [bytes2, bytes4, byteOf, byteOf_mod, orZero]

/-- READ PROBE is answered with the numbers of the probe. -/
theorem exec_readProbe {c : Chan} {s : State} {d : Directive} {rest : List Directive} (htake : Takeable c 36 0 d rest s)
    {numbers : List Nat} (h : readProbeData s.probe = numbers.map (BitVec.ofNat 8)) :
    exec (.readProbe c) s = .next (answeredState c rest d .done none (numbers.map (BitVec.ofNat 8)) s) := by
  refine (exec_directiveRow_takeable htake (k := .readProbe) rfl (Nat.zero_le _)).trans (congrArg Host.Outcome.next ?_)
  rw [← h]
  exact answer_withTaken ..

/-- Settles O24: by the state of the probe. -/
theorem readProbeResult : Obligations.ReadProbeResult := by
  intro c s d rest htake
  cases hprobe : s.probe with
  | idle =>
    refine ⟨[0], List.replicate 8 0, List.replicate 16 0, rfl, rfl, fun _ => ⟨rfl, rfl⟩, fun _ => rfl, ?_, ?_, ?_,
      exec_readProbe htake (by rw [hprobe]; rfl)⟩
    all_goals simp
  | armed a =>
    refine ⟨[1], armNumbers a, List.replicate 16 0, rfl, rfl, nofun, fun _ => rfl, ?_, fun _ _ => rfl, nofun,
      exec_readProbe htake ?_⟩
    · rintro b (⟨hb, -⟩ | ⟨x, hx, -⟩)
      · cases hb
        unfold armNumbers
        cases a.cond <;> rfl
      · cases hx
    · rw [hprobe]
      show [1] ++ armBytes a ++ List.replicate 16 0 = _
      rw [armBytes_eq, List.map_append, List.map_append]
      rfl
  | captured a x =>
    refine ⟨[2], armNumbers a, captureNumbers x, rfl, rfl, nofun, fun h => absurd rfl (h a x), ?_, nofun, ?_,
      exec_readProbe htake ?_⟩
    · rintro b (⟨hb, -⟩ | ⟨y, hy, -⟩)
      · cases hb
      · cases hy
        unfold armNumbers
        cases a.cond <;> rfl
    · rintro b y hy
      cases hy
      refine ⟨rfl, ?_⟩
      unfold captureNumbers
      cases x.track <;> rcases x.mode with _ | (_ | _) <;> rfl
    · rw [hprobe]
      show [2] ++ armBytes a ++ captureRecordBytes x = _
      rw [armBytes_eq, captureRecordBytes_eq, List.map_append, List.map_append]
      rfl

/-! ### ARM PROBE -/

/-- A channel is found by its number. -/
theorem chanOfNat?_chanNat (c : Chan) : chanOfNat? (chanNat c) = some c := by cases c <;> rfl

theorem chanOfNat?_eq_none_iff (n : Nat) : chanOfNat? n = none ↔ 3 < n := by
  rcases n with _ | _ | _ | _ | n <;> simp [chanOfNat?]

/-- A condition code is refused above 4 (R162). -/
theorem conditionOf?_eq_none_iff (n : Nat) : conditionOf? n = none ↔ 4 < n := by
  rcases n with _ | _ | _ | _ | _ | n <;> simp [conditionOf?]

theorem conditionCode_of_conditionOf? {n : Nat} {x : Condition} (h : conditionOf? n = some x) : conditionCode x = n := by
  unfold conditionOf? at h
  split at h <;> cases h <;> rfl

/-- An ARM PROBE payload gives no arm record when its channel, its condition or its column is refused. -/
theorem armOf?_eq_none {p : List Byte} (h : 3 < arg1 p 0 ∨ 719 < arg2 p 3 ∨ 4 < arg1 p 5) : armOf? p = none := by
  unfold armOf?
  cases hchan : chanOfNat? (arg1 p 0) with
  | none => rfl
  | some e =>
    cases hcond : conditionOf? (arg1 p 5) with
    | none => rfl
    | some x =>
      have hc : ¬ 3 < arg1 p 0 := fun hc => by simp [(chanOfNat?_eq_none_iff _).2 hc] at hchan
      have hx : ¬ 4 < arg1 p 5 := fun hx => by simp [(conditionOf?_eq_none_iff _).2 hx] at hcond
      exact if_pos (by tauto)

/-- An ARM PROBE payload that names a channel, a condition and a column gives its arm record (R162, R164). -/
theorem armOf?_eq_some {p : List Byte} {e : Chan} (hchan : chanNat e = arg1 p 0) (hcolumn : arg2 p 3 ≤ 719)
    (hcond : arg1 p 5 ≤ 4) : ∃ x, conditionCode x = arg1 p 5 ∧
      armOf? p = some ⟨e, arg2 p 1, arg2 p 3, x, min 1023 (arg2 p 6)⟩ := by
  obtain ⟨x, hx⟩ := Option.ne_none_iff_exists'.1 (mt (conditionOf?_eq_none_iff _).1 (Nat.not_lt.2 hcond))
  refine ⟨x, conditionCode_of_conditionOf? hx, ?_⟩
  unfold armOf?
  rw [← hchan, chanOfNat?_chanNat, hx]
  exact if_neg (Nat.not_lt.2 hcolumn)

/-- The format of a channel stands when a head is taken. -/
theorem ctl_withTaken (c e : Chan) (rest : List Directive) (s : State) :
    ((s.setCh c (withTaken rest (s.ch c))).ch e).ctl = (s.ch e).ctl := by
  by_cases h : e = c
  · rw [h, State.ch_setCh_same]
    rfl
  · rw [State.ch_setCh_ne _ h]

/-- Settles O23: a payload without an arm record and a row outside its frame are refused; else the record is armed. -/
theorem armProbeResult : Obligations.ArmProbeResult := by
  intro c s d rest htake b hb
  have hbyte : ∀ i, arg1 d.payload i = b i := fun i => by rw [hb]; rfl
  have hword : ∀ i, arg2 d.payload i = b i + 256 * b (i + 1) := fun i => by rw [hb]; rfl
  have hexec := exec_directiveRow_takeable htake (k := .armProbe) rfl (Nat.le_refl _)
  refine ⟨fun hrefused => ?_, fun e hchan hcolumn hcond hrow => ?_⟩
  · refine hexec.trans (congrArg Host.Outcome.next (Eq.trans ?_ (answer_withTaken ..)))
    show doArmProbe c d (s.setCh c (withTaken rest (s.ch c))) = _
    unfold doArmProbe
    by_cases hcodes : 3 < b 0 ∨ 719 < b 3 + 256 * b 4 ∨ 4 < b 5
    · rw [armOf?_eq_none (by rwa [hbyte, hbyte, hword])]
      rfl
    · obtain ⟨e, hchan, hrow⟩ : ∃ e, chanNat e = b 0 ∧ 2 * activeLines (s.ch e).ctl.format.standard ≤ b 1 + 256 * b 2 := by
        tauto
      have hcolumn : b 3 + 256 * b 4 ≤ 719 := by omega
      obtain ⟨x, -, harm⟩ := armOf?_eq_some (p := d.payload) (hchan.trans (hbyte 0).symm) (by rw [hword]; exact hcolumn)
        (by rw [hbyte]; omega)
      rw [harm]
      dsimp only
      rw [ctl_withTaken, if_neg (by rw [hword]; exact Nat.not_lt.2 hrow)]
      rfl
  · obtain ⟨x, hx, harm⟩ := armOf?_eq_some (p := d.payload) (hchan.trans (hbyte 0).symm) (by rw [hword]; exact hcolumn)
      (by rw [hbyte]; exact hcond)
    refine ⟨x, ?_, hexec.trans (congrArg Host.Outcome.next ?_)⟩
    · rw [← hbyte, ← hx]
      cases x <;> rfl
    · show doArmProbe c d (s.setCh c (withTaken rest (s.ch c))) = _
      unfold doArmProbe
      rw [harm]
      dsimp only
      rw [ctl_withTaken, if_pos (by rw [hword]; exact hrow), hword, hword, hword]
      exact congrArg (fun u : State => { u with
        probe := .armed ⟨e, b 1 + 256 * b 2, b 3 + 256 * b 4, x, min 1023 (b 6 + 256 * b 7)⟩ }) (answer_withTaken ..)

end Sys2Proof.Machine
end

section
/-! SUPPORT. What the rows of the directives share: what is refused, and when a directive waits (R159, R160). -/

namespace Sys2Proof.Machine

open Sys2Proof

/-- A directive's row takes the directive of its kind. -/
theorem exec_directiveRow (c : Chan) (k : Option DirKind) (s : State) :
    exec (directiveRow c k) s = .next (takeKind c k s) := by
  cases k with
  | none => rfl
  | some k => cases k <;> rfl

/-! ### Refusals -/

/-- The kind bytes that name no directive (R162). -/
theorem dirKind?_eq_none {kind : Byte}
    (h : kind.toNat ∉ [1, 2, 3, 4, 5, 6, 7, 16, 17, 18, 19, 20, 32, 33, 34, 35, 36, 47]) : dirKind? kind = none := by
  unfold dirKind?
  split <;> simp_all

/-- A directive with too few bytes is refused by its row (R160). -/
theorem exec_directiveRow_short {c : Chan} {kind n : Nat} {d : Directive} {rest : List Directive} {s : State}
    (h : Takeable c kind n d rest s) {k : DirKind} (hk : dirKind? (BitVec.ofNat 8 kind) = some k)
    (hn : d.payload.length < argBytes k) :
    exec (directiveRow c (some k)) s = .next (answeredState c rest d .refused (some .badArgument) [] s) := by
  obtain ⟨-, hkind, -, -, -⟩ := id h
  have hknown : dirKind? d.kind = some k := (dirKind?_of_toNat hkind).trans hk
  rw [exec_directiveRow, takeKind_takeable h hknown, carryOut_short hknown hn]
  exact congrArg Host.Outcome.next (answer_leaveQueue ..)

/-- Settles O25: an unknown kind, and each directive with arguments when they are short. -/
theorem unknownAndShortRefused : Obligations.UnknownAndShortRefused := by
  intro c s d rest htake
  refine ⟨fun hunknown => ?_, fun kind n row hrow hkind hshort => ?_⟩
  · have hnone := dirKind?_eq_none hunknown
    show Host.Outcome.next (takeKind c none s) = _
    rw [takeKind_takeable htake hnone, carryOut_unknown hnone]
    exact congrArg Host.Outcome.next (answer_leaveQueue ..)
  · rw [hkind] at htake
    simp only [List.mem_cons, List.not_mem_nil, Prod.mk.injEq, or_false] at hrow
    rcases hrow with ⟨rfl, rfl, rfl⟩ | ⟨rfl, rfl, rfl⟩ | ⟨rfl, rfl, rfl⟩ | ⟨rfl, rfl, rfl⟩ | ⟨rfl, rfl, rfl⟩ |
      ⟨rfl, rfl, rfl⟩ | ⟨rfl, rfl, rfl⟩ | ⟨rfl, rfl, rfl⟩
    · exact exec_directiveRow_short htake (k := .setFormat) rfl hshort
    · exact exec_directiveRow_short htake (k := .setParameters) rfl hshort
    · exact exec_directiveRow_short htake (k := .readStats) rfl hshort
    · exact exec_directiveRow_short htake (k := .loadBegin) rfl hshort
    · exact exec_directiveRow_short htake (k := .loadSegment) rfl hshort
    · exact exec_directiveRow_short htake (k := .readTable) rfl hshort
    · exact exec_directiveRow_short htake (k := .setDeviceOptions) rfl hshort
    · exact exec_directiveRow_short htake (k := .armProbe) rfl hshort

/-! ### Waiting -/

/-- Settles O26: by what heads the queue, by the directives taken and by the places that are free. -/
theorem directiveWaits : Obligations.DirectiveWaits := by
  intro c k s
  simp only [exec_directiveRow, Host.Outcome.next.injEq]
  refine ⟨fun h => takeKind_empty h k, fun d rest h hk => takeKind_other h hk, fun h => ?_,
    fun d rest hq hk hne htaken hfull => ?_⟩
  · unfold takeKind
    split
    · rfl
    · rw [takeNext_full h, ite_self]
  · have hplace : ¬ (dirKind? d.kind = some .restartDevice ∨ 0 < s.freePlaces c) := by
      rw [hk, hfull]
      exact fun h => h.elim hne (Nat.lt_irrefl 0)
    have htakes : takeKind c k s = takeNext c (s.startNo + 1) s := by
      unfold takeKind
      rw [hq]
      exact if_pos hk
    rw [htakes]
    unfold takeNext
    split
    · next hempty => cases hq.symm.trans hempty
    · next d' rest' hq' =>
      cases hq.symm.trans hq'
      exact (if_neg (Nat.not_le.2 htaken)).trans (if_neg hplace)

end Sys2Proof.Machine
end

section
/-! SUPPORT. A directive other than RESTART DEVICE reaches no channel but its own (R159, R163, R164). -/

namespace Sys2Proof.Machine

open Sys2Proof

/-- The channels other than `c` stand. -/
def OthersStand (c : Chan) (s t : State) : Prop := ∀ e, e ≠ c → t.ch e = s.ch e

section

variable {c : Chan} {s t : State}

theorem othersStand_of_chans (h : t.chans = s.chans) : OthersStand c s t := fun e _ => congrArg (fun x => quadGet x e) h

theorem OthersStand.modCh (h : OthersStand c s t) (f : Channel → Channel) : OthersStand c s (t.modCh c f) := fun e he =>
  (State.ch_modCh_ne t he f).trans (h e he)

theorem OthersStand.answered (h : OthersStand c s t) {tag kind : Byte} {code : AnswerCode} {r : Option Reason}
    {data : List Byte} : OthersStand c s (answer c tag kind code r data t) := h.modCh _

end

section

variable (c : Chan) (s : State) (n : Nat) (d : Directive)

/-- An answer alone. -/
theorem othersStand_answer {code : AnswerCode} {r : Option Reason} {data : List Byte} :
    OthersStand c s (answer c d.tag d.kind code r data s) := (othersStand_of_chans rfl).answered

theorem othersStand_doResetChannel : OthersStand c s (doResetChannel c d s) := fun e he => by
  rw [doResetChannel_eq]
  exact State.ch_setCh_ne s he _

/-- The directives to a channel other than RESET CHANNEL. -/
theorem othersStand_channelDirectives :
    OthersStand c s (doProbe c d s) ∧ OthersStand c s (doSetFormat c n d s) ∧ OthersStand c s (doSetParameters c n d s) ∧
    OthersStand c s (doStart c d s) ∧ OthersStand c s (doHalt c n d s) ∧ OthersStand c s (doReadStats c d s) := by
  have hchange : ∀ f, OthersStand c s (s.modCh c f) := (othersStand_of_chans rfl).modCh
  refine ⟨(hchange _).answered, ?_, ?_, ?_, ?_, ?_⟩
  · unfold doSetFormat
    split
    · exact (hchange _).answered
    · exact othersStand_answer c s d
    · exact othersStand_answer c s d
  · unfold doSetParameters
    split
    · exact othersStand_answer c s d
    · refine OthersStand.answered ?_
      split
      · exact fun e he => (deliverHeld_ch_ne c _ he 1).trans (hchange _ e he)
      · exact hchange _
  · unfold doStart
    split
    · split
      · exact (hchange _).answered
      · exact othersStand_answer c s d
    · exact othersStand_answer c s d
  · unfold doHalt
    split
    · exact hchange _
    · exact hchange _
    · exact hchange _
    · exact othersStand_answer c s d
    · exact othersStand_answer c s d
  · unfold doReadStats
    refine OthersStand.answered ?_
    split
    · exact hchange _
    · exact othersStand_of_chans rfl

/-- The load directives. -/
theorem othersStand_loadDirectives :
    OthersStand c s (doLoadBegin c d s) ∧ OthersStand c s (doLoadSegment c d s) ∧ OthersStand c s (doLoadCommit c n d s) ∧
    OthersStand c s (doLoadAbort c d s) ∧ OthersStand c s (doReadTable c d s) := by
  have hload : ∀ l sh, OthersStand c s { s with loader := l, shadow := sh } := fun _ _ => othersStand_of_chans rfl
  refine ⟨?_, ?_, ?_, ?_, ?_⟩
  · unfold doLoadBegin
    split
    · exact othersStand_answer c s d
    · split
      · exact othersStand_answer c s d
      · exact (hload _ _).answered
    · exact othersStand_answer c s d
    · exact othersStand_answer c s d
  · unfold doLoadSegment
    split
    · exact othersStand_answer c s d
    · exact othersStand_answer c s d
    · dsimp only
      split
      · exact othersStand_answer c s d
      · split
        · exact (hload _ _).answered
        · exact othersStand_answer c s d
  · unfold doLoadCommit
    split
    · exact othersStand_answer c s d
    · exact othersStand_answer c s d
    · split
      · exact othersStand_answer c s d
      · split
        · exact othersStand_answer c s d
        · split
          · exact (hload _ _).answered
          · exact hload _ _
  · unfold doLoadAbort
    split
    · exact othersStand_answer c s d
    · exact othersStand_answer c s d
    · split
      · exact (hload _ _).answered
      · exact othersStand_answer c s d
  · unfold doReadTable
    split
    · exact othersStand_answer c s d
    · dsimp only
      split
      · exact othersStand_answer c s d
      · exact othersStand_answer c s d

/-- The directives to the device other than RESTART DEVICE. -/
theorem othersStand_deviceDirectives :
    OthersStand c s (doDeviceStatus c d s) ∧ OthersStand c s (doClearErrors c d s) ∧
    OthersStand c s (doSetDeviceOptions c d s) ∧ OthersStand c s (doArmProbe c d s) ∧ OthersStand c s (doReadProbe c d s) := by
  refine ⟨othersStand_answer c s d, (othersStand_of_chans rfl).answered, ?_, ?_, othersStand_answer c s d⟩
  · unfold doSetDeviceOptions
    split
    · exact (othersStand_of_chans rfl).answered
    · exact (othersStand_of_chans rfl).answered
    · exact othersStand_answer c s d
  · unfold doArmProbe
    split
    · exact othersStand_answer c s d
    · split
      · exact (othersStand_of_chans rfl).answered
      · exact othersStand_answer c s d

theorem othersStand_carryOutKind {k : DirKind} (hk : k ≠ .restartDevice) : OthersStand c s (carryOutKind k c n d s) := by
  obtain ⟨hprobe, hformat, hparams, hstart, hhalt, hstats⟩ := othersStand_channelDirectives c s n d
  obtain ⟨hbegin, hsegment, hcommit, habort, htable⟩ := othersStand_loadDirectives c s n d
  obtain ⟨hstatus, hclear, hoptions, harm, hread⟩ := othersStand_deviceDirectives c s d
  cases k with
  | probe => exact hprobe
  | setFormat => exact hformat
  | setParameters => exact hparams
  | start => exact hstart
  | halt => exact hhalt
  | resetChannel => exact othersStand_doResetChannel c s d
  | readStats => exact hstats
  | loadBegin => exact hbegin
  | loadSegment => exact hsegment
  | loadCommit => exact hcommit
  | loadAbort => exact habort
  | readTable => exact htable
  | deviceStatus => exact hstatus
  | clearErrors => exact hclear
  | setDeviceOptions => exact hoptions
  | armProbe => exact harm
  | readProbe => exact hread
  | restartDevice => exact absurd rfl hk

theorem othersStand_carryOut (hk : dirKind? d.kind ≠ some .restartDevice) : OthersStand c s (carryOut c n d s) := by
  unfold carryOut
  split
  · exact othersStand_answer c s d
  · next k hkind =>
    split
    · exact othersStand_answer c s d
    · exact othersStand_carryOutKind c s n d fun h => hk (hkind.trans (congrArg some h))

/-- The row of a directive other than RESTART DEVICE. -/
theorem othersStand_takeKind {k : Option DirKind} (hk : k ≠ some .restartDevice) : OthersStand c s (takeKind c k s) := by
  unfold takeKind
  split
  · exact othersStand_of_chans rfl
  · next d rest hqueue =>
    split
    · next hkind =>
      unfold takeNext
      rw [hqueue]
      dsimp only
      split
      · exact othersStand_of_chans rfl
      · split
        · exact fun e he => (othersStand_carryOut c _ _ d (hkind ▸ hk) e he).trans (State.ch_modCh_ne s he _)
        · exact (othersStand_of_chans rfl).modCh _
    · exact othersStand_of_chans rfl

end

/-- Settles O27: the row reaches no other channel, and of the device the load, the probe and the error capture alone. -/
theorem directivesKeepTheRest : Obligations.DirectivesKeepTheRest := by
  intro c k s hk
  have hstore : KeepsStore s (takeKind c k s) := keepsStore_takeKind hk c s
  obtain ⟨haddress, hrtu, hnow, hstart, hpending⟩ := hstore.timing
  refine ⟨_, exec_directiveRow c k s, othersStand_takeKind c s hk, hstore.dram, hstore.dramErrs, hstore.tables, hrtu, hnow,
    hstart, ?_, ?_, haddress, hpending⟩
  · rw [hstore]
  · rw [hstore]

end Sys2Proof.Machine
end

section
/-! SUPPORT. Every command answers a next state and leaves the queue of commands alone. -/

namespace Sys2Proof.Machine

open Sys2Proof

/-- A command's outcome on `s`: a next state, with the queue of commands as it was. -/
def Completes (s : State) (o : Host.Outcome State Fault Refusal) : Prop := ∃ t, o = .next t ∧ t.pending = s.pending

section

variable {s t : State}

theorem completes_idle : Completes s (.next s) := ⟨s, rfl, rfl⟩

theorem KeepsTiming.completes (h : KeepsTiming s t) : Completes s (.next t) := ⟨t, rfl, h.pending⟩

theorem KeepsDevice.completes (h : KeepsDevice s t) : Completes s (.next t) := h.timing.completes

/-- The row of a directive. -/
theorem completes_takeKind (c : Chan) (k : Option DirKind) : Completes s (.next (takeKind c k s)) :=
  (takeKind_keeps c k s).1.completes

/-! ### Lines and bursts -/

theorem completes_execControlPacket (c : Chan) : Completes s (execControlPacket c s) := by
  unfold execControlPacket
  split
  · exact completes_idle
  · exact ((keepsDevice_modCh c _ s).trans (keepsDevice_checkLineOf c _ _)).completes

theorem completes_execWriteBurstComplete : Completes s (execWriteBurstComplete s) := by
  unfold execWriteBurstComplete
  split
  · next c slot k words _ => exact ⟨_, rfl, (keepsDevice_burstEnded (writeLine c slot k words s)).pending⟩
  · exact completes_idle

theorem completes_execReadBurstComplete (line : LineRead) : Completes s (execReadBurstComplete line s) := by
  unfold execReadBurstComplete
  split
  · next c slot k _ num live present _ =>
    exact ((keepsStore_readDelivered c slot k num live present line.strikes line.read s).trans
      (keepsDevice_pumpEngine c _).store).timing.completes
  · exact completes_idle

theorem completes_execOutputLinePeriod (c : Chan) : Completes s (execOutputLinePeriod c s) := by
  unfold execOutputLinePeriod
  split
  · exact ((keepsDevice_modCh c _ s).trans (keepsDevice_pumpEngine c _)).completes
  · exact (keepsDevice_modCh c _ s).completes
  · exact completes_idle

/-! ### Work at an output frame start -/

theorem completes_execInputLoss (c : Chan) : Completes s (execInputLoss c s) := by
  unfold execInputLoss
  split
  · exact (keepsDevice_lossWork c s).completes
  · exact completes_idle

theorem completes_loaderWork (n : Nat) : Completes s (.next (loaderWork n s)) :=
  (keepsBesideTables_loaderWork n s).timing.completes

theorem completes_execLoadAbandoned : Completes s (execLoadAbandoned s) := by
  unfold execLoadAbandoned
  split
  · split
    · exact completes_loaderWork _
    · exact completes_idle
  · exact completes_idle

theorem completes_execTableSwap : Completes s (execTableSwap s) := by
  unfold execTableSwap
  split
  · split
    · exact completes_loaderWork _
    · exact completes_idle
  · exact completes_idle

theorem completes_execHaltComplete (c : Chan) : Completes s (execHaltComplete c s) := by
  unfold execHaltComplete
  split
  · split
    · exact (((keepsDevice_modCh c _ s).trans (keepsDevice_completeHalt c _ _)).trans (keepsDevice_modCh c _ _)).completes
    · exact completes_idle
  · exact completes_idle

/-! ### Output frame starts -/

/-- An output frame start, issued on a state with the queue of `s`. -/
theorem completes_issueStart {news : State → State} (hnews : ∀ u, KeepsDevice u (news u)) (order : List StartWork)
    (h : t.pending = s.pending) : Completes s (.next (issueStart news order t)) :=
  ⟨_, rfl, (keepsTiming_issueStart hnews order t).pending.trans h⟩

theorem completes_execReferencePulse (dt : Nat) (f : Family) (order : List StartWork) :
    Completes s (execReferencePulse dt f order s) := completes_issueStart (keepsDevice_pulseNews s.rtu f) order rfl

theorem completes_execRefLossTimeout (order : List StartWork) : Completes s (execRefLossTimeout order s) := by
  unfold execRefLossTimeout
  split
  · exact completes_idle
  · exact completes_issueStart (keepsDevice_raiseAll .refLost) order rfl

theorem completes_execFreeRunExpiry (order : List StartWork) : Completes s (execFreeRunExpiry order s) := by
  unfold execFreeRunExpiry
  split
  · exact completes_issueStart (news := id) KeepsDevice.refl order rfl
  · exact completes_idle

end

/-- Settles O2, command by command; the rows of the directives are the taking of their kinds. -/
theorem everyCommandCompletes : Obligations.EveryCommandCompletes := by
  intro i s
  show Completes s (exec i s)
  cases i with
  | powerOnReset straps found errs => exact ⟨_, rfl, rfl⟩
  | pinReset straps => exact ⟨_, rfl, cutBurst_pending s⟩
  | timingWord c dt w line => exact ⟨_, rfl, (keepsDevice_lineStart c w line _).pending⟩
  | controlPacket c => exact completes_execControlPacket c
  | writeBurstComplete => exact completes_execWriteBurstComplete
  | readBurstComplete line => exact completes_execReadBurstComplete line
  | referencePulse dt family order => exact completes_execReferencePulse dt family order
  | refLossTimeout order => exact completes_execRefLossTimeout order
  | freeRunExpiry order => exact completes_execFreeRunExpiry order
  | inputLoss c => exact completes_execInputLoss c
  | loadAbandoned => exact completes_execLoadAbandoned
  | tableSwap => exact completes_execTableSwap
  | haltComplete c => exact completes_execHaltComplete c
  | outputLinePeriod c => exact completes_execOutputLinePeriod c
  | restartDevice c | probe c | setFormat c | setParameters c | start c | halt c | resetChannel c | readStats c
  | loadBegin c | loadSegment c | loadCommit c | loadAbort c | readTable c | deviceStatus c | clearErrors c
  | setDeviceOptions c | armProbe c | readProbe c | unknownKind c => exact completes_takeKind c _

end Sys2Proof.Machine
end

section
/-! SUPPORT. The sorting of a control packet (R156, R157, R158, R166, R172). -/

namespace Sys2Proof.Machine

open Sys2Proof

section

variable (c : Chan) (s : State) (x : Channel)

/-- A discard, behind a record of its channel. -/
theorem discardDirective_setCh (k : EventKind) : discardDirective c k (s.setCh c x) = raise c k x.fieldCount (s.setCh c
    { x with stats := { x.stats with directivesDiscarded := min 65535 (x.stats.directivesDiscarded + 1) } }) := by
  unfold discardDirective
  rw [State.ch_setCh_same, State.modCh_setCh]
  rfl

/-- A directive that arrives, behind a record of its channel (R158). -/
theorem joinDirective_setCh (d : Directive) : joinDirective c d (s.setCh c x) =
    if x.pku.dirQueue.length < 8 then s.setCh c { x with pku := { x.pku with dirQueue := x.pku.dirQueue ++ [d] } }
    else discardDirective c .directiveOverrun (s.setCh c x) := by
  unfold joinDirective
  rw [State.ch_setCh_same, State.modCh_setCh]

/-- A relay that arrives, behind a record of its channel with the reports and the halt record of the state (R166, R172). -/
theorem offerRelay_setCh {x : Channel} (bytes : List Byte) (hrep : x.rep = (s.ch c).rep) (hhalt : x.ctl.halt = (s.ch c).ctl.halt) :
    offerRelay c bytes (s.setCh c x) =
      if 0 < s.freePlaces c ∧ eventCount x.rep.queue < 6 then s.setCh c (withReport (.relay bytes) x)
      else s.setCh c { x with stats := { x.stats with relaysDiscarded := min 65535 (x.stats.relaysDiscarded + 1) } } := by
  have hplaces : (s.setCh c x).freePlaces c = s.freePlaces c := freePlaces_setCh (by rw [hrep]) hhalt
  have hroom : (s.setCh c x).eventRoom c 0 = true ↔ 0 < s.freePlaces c ∧ eventCount x.rep.queue < 6 := by
    rw [eventRoom_iff, hplaces, State.ch_setCh_same]
    rfl
  unfold offerRelay
  rw [State.modCh_setCh, State.modCh_setCh]
  exact if_congr hroom rfl rfl

/-- A packet that passed is sorted by its address (R157). -/
theorem checkLineOf_some {ws : List LineWord} {addr kind tag len : Byte} {body : List Byte}
    (h : checkedPacket ws = some (addr :: kind :: tag :: len :: body)) : checkLineOf c ws s =
      if addr.toNat = s.deviceAddress.toNat then joinDirective c ⟨kind, tag, body.take len.toNat⟩ s
      else offerRelay c (addr :: kind :: tag :: len :: body) s := by
  unfold checkLineOf
  rw [h]
  rfl

theorem checkLineOf_none {ws : List LineWord} (h : checkedPacket ws = none) :
    checkLineOf c ws s = discardDirective c .checksumFail s := by
  unfold checkLineOf
  rw [h]

end

/-- CONTROL_PACKET checks the oldest line handed on, on the channel without it. -/
theorem exec_controlPacket {c : Chan} {s : State} {ws : List LineWord} {lines : List (List LineWord)}
    (h : (s.ch c).pku.handed = ws :: lines) : exec (.controlPacket c) s =
      .next (checkLineOf c ws (s.setCh c { s.ch c with pku := { (s.ch c).pku with handed := lines } })) := by
  show execControlPacket c s = _
  unfold execControlPacket
  rw [h]
  rfl

/-- Settles O28: the line is checked, and its packet sorted by its address, by the directives waiting and by the room. -/
theorem controlPacketSorted : Obligations.ControlPacketSorted := by
  intro c s
  refine ⟨fun hempty => ?_, fun ws lines ch hhanded hch => ?_⟩
  · show execControlPacket c s = _
    unfold execControlPacket
    rw [hempty]
  · rw [exec_controlPacket hhanded, ← hch]
    have hrep : ch.rep = (s.ch c).rep := by rw [hch]
    have hhalt : ch.ctl.halt = (s.ch c).ctl.halt := by rw [hch]
    refine ⟨fun hfault => ?_, fun addr kind tag len body hpacket => ?_⟩
    · rw [checkLineOf_none c _ hfault, discardDirective_setCh]
    · rw [checkLineOf_some c _ hpacket, joinDirective_setCh, discardDirective_setCh, offerRelay_setCh c s _ hrep hhalt]
      refine ⟨fun haddr hspace => ?_, fun haddr hfull => ?_, fun haddr hplace hevents => ?_, fun haddr hnoRoom => ?_⟩
      · exact congrArg _ ((if_pos haddr).trans (if_pos hspace))
      · exact congrArg _ ((if_pos haddr).trans (if_neg (Nat.not_lt.2 hfull)))
      · exact congrArg _ ((if_neg haddr).trans (if_pos ⟨hplace, hevents⟩))
      · exact congrArg _ ((if_neg haddr).trans (if_neg (by omega)))

end Sys2Proof.Machine
end

section
/-! SUPPORT. RESTART DEVICE, taken by its row (R89, R122, R165, R176). -/

namespace Sys2Proof.Machine

open Sys2Proof

/-! ### One channel -/

/-- What a device restart leaves of a channel's output frame (R89, R122). -/
theorem restartChannel_frame (ch : Channel) : OutputFrameEnded ch (restartChannel ch) := by
  refine ⟨rfl, fun h => ?_, fun x h => ?_⟩ <;> rw [restartChannel_ended] <;> unfold endedFrame <;> rw [h]
  rfl

/-- A device restart stops a channel (R29, R47, R82, R140, R177). -/
theorem restartChannel_stopped (ch : Channel) : ChannelStopped (restartChannel ch) :=
  ⟨⟨rfl, rfl, rfl, rfl, rfl, rfl, rfl, rfl, rfl⟩, rfl, rfl, ⟨rfl, rfl, rfl, rfl⟩, rfl, rfl, rfl, rfl, rfl, rfl,
    statsCleared_zeroStats⟩

/-- A device restart empties a channel's queues but for its RESTART event (R158, R176, R177). -/
theorem restartChannel_ports (ch : Channel) : PortsAfterRestart (restartChannel ch) := ⟨rfl, rfl, rfl, rfl⟩

/-- The directive queue at a restart does not matter to what it leaves of a channel. -/
theorem restartChannel_leaveQueue (rest : List Directive) (ch : Channel) :
    restartChannel (leaveQueue rest ch) = restartChannel ch := rfl

/-! ### The device -/

/-- RESTART DEVICE at the head is taken, also with no free place (R159). -/
theorem exec_restartDevice_taken {c : Chan} {s : State} {d : Directive} {rest : List Directive}
    (hqueue : (s.ch c).pku.dirQueue = d :: rest) (hkind : d.kind.toNat = 47) (htaken : (s.ch c).pku.taken < 2) :
    exec (.restartDevice c) s = .next (deviceRestart (s.modCh c (leaveQueue rest))) := by
  have hrestart : dirKind? d.kind = some .restartDevice := dirKind?_of_toNat hkind
  show Host.Outcome.next (takeKind c (some .restartDevice) s) = _
  unfold takeKind takeNext
  rw [hqueue]
  dsimp only
  rw [if_pos hrestart, if_neg (Nat.not_le.2 htaken), if_pos (.inl hrestart), carryOut_restartDevice hrestart]

/-- The blocks that the channels share, behind a device restart (R47, R154, R165, R176). -/
theorem deviceRestart_eq (s : State) : deviceRestart s = { s with
    chans := (deviceRestart s).chans, arbiter := Arbiter.reset, loader := .idle, shadow := [], startSeen := false
    probe := .idle, inhibitBefore := [], resetCause := .restartDirective
    dram := (cutBurst s).dram, dramErrs := (cutBurst s).dramErrs, draws := (cutBurst s).draws } := by
  unfold deviceRestart
  rw [cutBurst_eq]

/-- Settles O6: the directive is taken, each channel restarted, and a write burst in flight cut short. -/
theorem deviceRestartResult : Obligations.DeviceRestartResult := by
  intro c s d rest hqueue hkind htaken
  have hch : ∀ e, (deviceRestart (s.modCh c (leaveQueue rest))).ch e = restartChannel (s.ch e) := fun e => by
    rw [deviceRestart_ch]
    by_cases he : e = c
    · rw [he, State.ch_modCh_same, restartChannel_leaveQueue]
    · rw [State.ch_modCh_ne s he]
  have hdevice := deviceRestart_eq (s.modCh c (leaveQueue rest))
  have hdram : (deviceRestart (s.modCh c (leaveQueue rest))).dram = (cutBurst (s.modCh c (leaveQueue rest))).dram := rfl
  have herrs : (deviceRestart (s.modCh c (leaveQueue rest))).dramErrs = (cutBurst (s.modCh c (leaveQueue rest))).dramErrs := rfl
  refine ⟨_, exec_restartDevice_taken hqueue hkind htaken, fun e => ?_, rfl, rfl, rfl, rfl, rfl, ?_, ?_, ?_, rfl, ?_, ?_,
    fun hidle => ?_, fun e slot k words hburst a ha => ?_⟩
  · rw [hch]
    exact ⟨restartChannel_stopped _, restartChannel_ports _, rfl, rfl, rfl, rfl, restartChannel_frame _⟩
  · rw [hdevice]; rfl
  · rw [hdevice]; rfl
  · rw [hdevice]; rfl
  · rw [hdevice]; rfl
  · rw [hdevice]; rfl
  · rw [hdram, herrs, cutBurst_idle (s := s.modCh c (leaveQueue rest)) hidle]
    exact ⟨rfl, rfl⟩
  · exact cutBurst_outside (s := s.modCh c (leaveQueue rest)) hburst ha

end Sys2Proof.Machine
end

section
/-! SUPPORT. Packets read back (R155, R156). -/

namespace Sys2Proof.Machine

open Sys2Proof

/-! ### Words and bytes -/

theorem toNat_byteWord (b : Byte) : (byteWord b).toNat = 256 + b.toNat :=
  Nat.mod_eq_of_lt (by have := b.isLt; omega)

/-- The two upper bits of a word that carries a byte, by its number (R155). -/
theorem carriesByte_iff (w : LineWord) : carriesByte w = true ↔ w.toNat / 256 = 1 := by
  have hw : w.toNat < 1024 := w.isLt
  simp only [carriesByte, BitVec.getLsbD, Nat.testBit_eq_decide_div_mod_eq, Bool.and_eq_true, Bool.not_eq_true',
    decide_eq_true_eq, decide_eq_false_iff_not, Nat.reducePow]
  omega

theorem toNat_wordByte (w : LineWord) : (wordByte w).toNat = w.toNat % 256 := by simp [wordByte]

@[simp] theorem wordByte_byteWord (b : Byte) : wordByte (byteWord b) = b := BitVec.eq_of_toNat_eq (by
  rw [toNat_wordByte, toNat_byteWord]
  have := b.isLt
  omega)

@[simp] theorem carriesByte_byteWord (b : Byte) : carriesByte (byteWord b) = true := by
  rw [carriesByte_iff, toNat_byteWord]
  have := b.isLt
  omega

/-- A word that carries a byte is the word of its byte. -/
theorem byteWord_wordByte {w : LineWord} (h : carriesByte w = true) : byteWord (wordByte w) = w := BitVec.eq_of_toNat_eq (by
  rw [toNat_byteWord, toNat_wordByte]
  have := (carriesByte_iff w).1 h
  omega)

theorem map_wordByte_byteWord (l : List Byte) : (l.map byteWord).map wordByte = l := by
  simp [Function.comp_def]

theorem map_byteWord_wordByte {l : List LineWord} (h : l.all carriesByte = true) : (l.map wordByte).map byteWord = l := by
  rw [List.map_map]
  exact (List.map_congr_left fun w hw => byteWord_wordByte (List.all_eq_true.1 h w hw)).trans (List.map_id l)

/-! ### The checksum -/

theorem byteSum_append (l m : List Byte) : byteSum (l ++ m) = byteSum l + byteSum m := by simp [byteSum]

/-- The checksum makes the sum a multiple of 256 (R155). -/
theorem byteSum_withChecksum (l : List Byte) : byteSum (withChecksum l) % 256 = 0 := by
  have hsum : byteSum [checksum l] = (256 - byteSum l % 256) % 256 := by simp [byteSum, checksum, byteOf]
  unfold withChecksum
  rw [byteSum_append, hsum]
  omega

/-! ### Packets -/

/-- A packet that passes the checks of R156, by its bytes: what stands behind the marker, up to the checksum. -/
def PacketSound (bytes : List Byte) : Prop :=
  ∃ addr kind tag len body, bytes = addr :: kind :: tag :: len :: body ∧ body.length = len.toNat + 1 ∧ addr.toNat ≤ 15 ∧
    len.toNat ≤ 192 ∧ byteSum bytes % 256 = 0

/-- The words of a sound packet, with any words behind it, pass the checks (R156). -/
theorem checkedPacket_packetWords {bytes : List Byte} (h : PacketSound bytes) (extra : List LineWord) :
    checkedPacket (packetWords bytes ++ extra) = some bytes := by
  obtain ⟨addr, kind, tag, len, body, rfl, hlength, haddr, hlen, hsum⟩ := h
  have htake : (body.map byteWord ++ extra).take ((wordByte (byteWord len)).toNat + 1) = body.map byteWord :=
    List.take_left' (by rw [wordByte_byteWord, List.length_map, hlength])
  have hbytes := map_wordByte_byteWord (addr :: kind :: tag :: len :: body)
  have hwords : byteWord addr :: byteWord kind :: byteWord tag :: byteWord len ::
      (body.map byteWord ++ extra).take ((wordByte (byteWord len)).toNat + 1) =
      (addr :: kind :: tag :: len :: body).map byteWord := by rw [htake]; rfl
  show checkedPacket (marker1 :: marker2 :: marker1 :: byteWord addr :: byteWord kind :: byteWord tag :: byteWord len ::
    (body.map byteWord ++ extra)) = _
  unfold checkedPacket
  dsimp only
  rw [hwords, hbytes]
  refine if_pos ⟨rfl, rfl, ?_, by rwa [wordByte_byteWord], by rwa [wordByte_byteWord], ?_, hsum⟩
  · simp
  · rw [wordByte_byteWord, List.length_append, List.length_map]
    omega

/-- A line that passes the checks holds the words of a sound packet behind its first word (R156). -/
theorem of_checkedPacket {ws : List LineWord} {bytes : List Byte} (h : checkedPacket ws = some bytes) :
    PacketSound bytes ∧ ∃ w extra, ws = w :: marker2 :: marker1 :: (bytes.map byteWord ++ extra) := by
  unfold checkedPacket at h
  split at h
  · next w w1 w2 addr kind tag len rest =>
    dsimp only at h
    split at h
    · next hchecks =>
      obtain ⟨rfl, rfl, hcarry, haddr, hlen, hrest, hsum⟩ := hchecks
      cases h
      refine ⟨⟨wordByte addr, wordByte kind, wordByte tag, wordByte len, _, rfl, ?_, haddr, hlen, hsum⟩, w,
        rest.drop ((wordByte len).toNat + 1), ?_⟩
      · rw [List.length_map, List.length_take, Nat.min_eq_left hrest]
      · rw [map_byteWord_wordByte hcarry]
        exact congrArg (fun l => w :: marker2 :: marker1 :: addr :: kind :: tag :: len :: l)
          (List.take_append_drop _ rest).symm
    · cases h
  · cases h

/-- Settles O29: packets formed pass, and what passes is formed so. -/
theorem packetsReadBack : Obligations.PacketsReadBack := by
  refine ⟨fun addr kind tag payload extra haddr hlength bytes hbytes => ?_, fun ws bytes h => ?_⟩
  · have hlen : (BitVec.ofNat 8 payload.length).toNat = payload.length := Nat.mod_eq_of_lt (by omega)
    have hsum : byteSum bytes % 256 = 0 := hbytes ▸ byteSum_withChecksum _
    have hshape : bytes = addr :: kind :: tag :: BitVec.ofNat 8 payload.length ::
        (payload ++ [checksum ([addr, kind, tag, BitVec.ofNat 8 payload.length] ++ payload)]) := hbytes
    refine ⟨checkedPacket_packetWords ⟨addr, kind, tag, _, _, hshape, ?_, haddr, ?_, hsum⟩ extra, hsum, ?_, ?_⟩
    · rw [List.length_append, hlen]
      rfl
    · rwa [hlen]
    · rw [hshape]
      refine congrArg (Directive.mk kind tag) ?_
      show (payload ++ _).take (BitVec.ofNat 8 payload.length).toNat = payload
      rw [hlen]
      exact List.take_left
    · rw [hshape]
      rfl
  · obtain ⟨⟨addr, kind, tag, len, body, hshape, hlength, haddr, hlen, hsum⟩, w, extra, hws⟩ := of_checkedPacket h
    refine ⟨w, extra, hws, ?_, ?_, ?_, hsum⟩
    · rw [hshape]
      exact haddr
    · rw [hshape]
      exact hlen
    · rw [hshape]
      show body.length + 1 + 1 + 1 + 1 = len.toNat + 5
      omega

end Sys2Proof.Machine
end

section
/-! SUPPORT. An event raised: in the report queue, or in the held status (R162, R166, R170). -/

namespace Sys2Proof.Machine

open Sys2Proof

/-- The event kinds in the order of their bits in the event mask (R162). -/
def eventKinds : List EventKind :=
  [.inputLost, .inputRestored, .cadenceLocked, .cadenceLost, .slipDrop, .slipRepeat, .rateMismatch, .checksumFail,
    .directiveOverrun, .eccSingle, .eccDouble, .refLost, .refLocked, .loadAbandoned, .probeHit, .restart]

theorem map_eventBit_eventKinds : eventKinds.map eventBit = List.range 16 := rfl

theorem eventBit_of_getElem? {bit : Nat} {k : EventKind} (h : eventKinds[bit]? = some k) : eventBit k = bit := by
  have hbit : (List.range 16)[bit]? = some (eventBit k) := by
    rw [← map_eventBit_eventKinds, List.getElem?_map, h, Option.map_some]
  obtain ⟨_, hrange⟩ := List.getElem?_eq_some_iff.1 hbit
  rw [← hrange, List.getElem_range]

/-- When an event joins the report queue, by its kind's bit (R166, R170). -/
theorem raise_joins_iff (c : Chan) (k : EventKind) (s : State) :
    (hasKind (s.ch c).rep.mask k = false ∧ (s.ch c).rep.held.kinds = 0 ∧ s.eventRoom c 0 = true) ↔
      (s.ch c).rep.mask.getLsbD (eventBit k) = false ∧ (s.ch c).rep.held.kinds = 0 ∧ 0 < s.freePlaces c ∧
        eventCount (s.ch c).rep.queue < 6 := by
  rw [eventRoom_iff]
  rfl

/-- Settles O30: by whether the event is unmasked, finds the held status empty, and has room in the queue. -/
theorem eventRaisedOrHeld : Obligations.EventRaisedOrHeld := by
  intro c k field s bit hk
  obtain rfl := eventBit_of_getElem? hk
  unfold raise
  split
  · next hjoins => rw [if_pos ((raise_joins_iff c k s).1 hjoins)]; rfl
  · next hheld => rw [if_neg (fun hjoins => hheld ((raise_joins_iff c k s).2 hjoins))]; rfl

end Sys2Proof.Machine
end

section
/-! SUPPORT. The counters of a channel (R99, R173): those of its statistics, and the fallback count of its engine's frame; what
keeps them within 0 to 65535. -/

namespace Sys2Proof.Machine

open Sys2Proof

/-! ### Saturating counters -/

@[simp] theorem satAdd_le_max (x n : Nat) : satAdd x n ≤ 65535 := Nat.min_le_left _ _

/-- R173: all fifteen values stay within 0 to 65535. -/
def StatsFit (x : Stats) : Prop := ∀ n ∈ statsList x, n ≤ 65535

/-- Statistics of which each value stands or is within its bounds. -/
theorem StatsFit.update {x y : Stats} (h : StatsFit x)
    (hy : List.Forall₂ (fun n m => m = n ∨ m ≤ 65535) (statsList x) (statsList y)) : StatsFit y := by
  unfold StatsFit at h ⊢
  generalize statsList x = old, statsList y = new at h hy ⊢
  induction hy with
  | nil => exact h
  | cons hnm _ ih =>
    rw [List.forall_mem_cons] at h ⊢
    obtain ⟨hn, hrest⟩ := h
    exact ⟨hnm.elim (fun hm => hm.trans_le hn) id, ih hrest⟩

theorem statsFit_zeroStats : StatsFit zeroStats := by simp [StatsFit, statsList, zeroStats]

/-! ### The counters of one channel -/

/-- R173, R99: one channel's counters stay within 0 to 65535. -/
def CountsFit (ch : Channel) : Prop := StatsFit ch.stats ∧ ∀ f, ch.engine = some f → f.fallback ≤ 65535

section

variable {ch : Channel} {f : Frame}

theorem CountsFit.stats (h : CountsFit ch) : StatsFit ch.stats := h.1

theorem CountsFit.fallback (h : CountsFit ch) (hf : ch.engine = some f) : f.fallback ≤ 65535 := h.2 f hf

/-- Without a frame only the statistics count. -/
theorem CountsFit.of_noFrame (hstats : StatsFit ch.stats) (hengine : ch.engine = none) : CountsFit ch :=
  ⟨hstats, fun f hf => by rw [hengine] at hf; cases hf⟩

theorem countsFit_reset : CountsFit Channel.reset := .of_noFrame statsFit_zeroStats rfl

theorem CountsFit.withStats (h : CountsFit ch) {x : Stats} (hx : StatsFit x) : CountsFit { ch with stats := x } := ⟨hx, h.2⟩

/-- Counters advanced, saturating (R173). -/
theorem CountsFit.count (h : CountsFit ch) {x : Stats}
    (hx : List.Forall₂ (fun n m => m = n ∨ m ≤ 65535) (statsList ch.stats) (statsList x)) : CountsFit { ch with stats := x } :=
  h.withStats (h.stats.update hx)

theorem CountsFit.withFrame (h : CountsFit ch) (hf : f.fallback ≤ 65535) : CountsFit { ch with engine := some f } :=
  ⟨h.1, fun g hg => by obtain rfl := Option.some.inj hg; exact hf⟩

/-- A change of the frame that leaves its fallback count. -/
theorem CountsFit.mapFrame (h : CountsFit ch) {g : Frame → Frame} (hg : ∀ f, (g f).fallback = f.fallback) :
    CountsFit { ch with engine := ch.engine.map g } := by
  refine ⟨h.1, fun e he => ?_⟩
  obtain ⟨f, hf, rfl⟩ := Option.map_eq_some_iff.1 he
  rw [hg]
  exact h.fallback hf

/-! ### The receiver and the dropout lists (R14 to R21, R38) -/

theorem CountsFit.countDropout (h : CountsFit ch) : CountsFit (countDropout ch) :=
  h.count (by simp [statsList])

theorem CountsFit.offerToRing (h : CountsFit ch) (num k : Nat) (cause : Cause) : CountsFit (offerToRing num k cause ch) := by
  unfold Machine.offerToRing
  split
  · exact h
  · refine h.count ?_
    split <;> simp [statsList]

theorem CountsFit.receiverDropout (h : CountsFit ch) (k : Nat) (cause : Cause) : CountsFit (receiverDropout k cause ch) := by
  unfold Machine.receiverDropout
  split
  · exact h.offerToRing _ _ _
  · exact h

theorem CountsFit.offerLine (h : CountsFit ch) (l : BufLine) : CountsFit (offerLine l ch) := by
  unfold Machine.offerLine
  split
  · exact h
  · split
    · exact h.receiverDropout _ _
    · exact h.countDropout.receiverDropout _ _

theorem CountsFit.judgeLine (h : CountsFit ch) (k : Nat) (line : LineIn) : CountsFit (judgeLine k line ch) := by
  unfold Machine.judgeLine
  split
  · exact h.offerLine _
  · exact (h.countDropout.receiverDropout _ _).offerLine _

theorem CountsFit.endLine (h : CountsFit ch) (line : LineIn) : CountsFit (endLine line ch) := by
  have hreceived : CountsFit (receiveLine line ch) := by
    unfold receiveLine
    generalize assembleLine ch.recv.fieldStd line = words
    exact h
  unfold Machine.endLine
  split
  · unfold handOn
    split
    · exact h
    · split <;> exact h
  · split
    · generalize receiveLine line ch = x at hreceived ⊢
      split
      · exact hreceived.judgeLine _ _
      · exact hreceived
    · exact h

theorem CountsFit.closeVote (h : CountsFit ch) : CountsFit (closeVote ch) := by
  unfold Machine.closeVote
  dsimp only
  split
  · refine h.count ?_
    split <;> simp [statsList]
  · exact h

theorem CountsFit.nextLine (h : CountsFit ch) (w : TimingWord) : CountsFit (nextLine w ch) := by
  have hcounted : CountsFit { ch with recv := { ch.recv with lineNo := ch.recv.lineNo + 1, lineValid := w.valid } } := h
  unfold Machine.nextLine voteAtLine
  split
  · exact hcounted
  · split
    · exact hcounted.closeVote
    · split
      · have hjoined : CountsFit (joinVote w.parity
            { ch with recv := { ch.recv with lineNo := ch.recv.lineNo + 1, lineValid := w.valid } }) := hcounted
        split
        · exact hjoined.closeVote
        · exact hjoined
      · exact hcounted

/-- Waiting lines discarded, and lines not received, are counted and listed (R14 steps 2 and 3). -/
theorem CountsFit.closeLines (h : CountsFit ch) :
    CountsFit ((missingLines ch.recv).foldl shortLine (discardBuffer ch)) := by
  have hdiscarded : CountsFit (discardBuffer ch) := by
    refine List.foldlRecOn (motive := CountsFit) _ _ h fun x hx l _ => ?_
    unfold discardWaiting
    split
    · exact hx.receiverDropout _ _
    · exact hx.countDropout.receiverDropout _ _
  exact List.foldlRecOn (motive := CountsFit) _ _ hdiscarded fun x hx k _ => hx.countDropout.receiverDropout _ _

/-- The vote closed and the record completed (R36 steps 1 and 2). -/
theorem CountsFit.completeField (h : CountsFit ch) : CountsFit (completeRecord (closeOpenVote ch)) := by
  have hclosed : CountsFit (closeOpenVote ch) := by
    unfold closeOpenVote
    split
    · exact h
    · exact h.closeVote
  exact hclosed

theorem CountsFit.countAccepted (h : CountsFit ch) (flywheel : Bool) :
    CountsFit (fieldValuesInForce (countAccepted flywheel ch)) := by
  refine ⟨h.stats.update ?_, h.2⟩
  unfold fieldValuesInForce Machine.countAccepted
  cases flywheel <;> simp [statsList]

/-- The tracker's event counts (R79). -/
theorem CountsFit.trackFieldEnd (h : CountsFit ch) (t : Tables) (r : FieldRecord) (r1 r2 : Option FieldRecord) :
    CountsFit (trackFieldEnd t r r1 r2 ch).1 := by
  have hcounted : ∀ e, StatsFit (countTrackEvent e ch.stats) := fun e => h.stats.update (by
    unfold countTrackEvent
    split <;> simp [statsList])
  exact ⟨hcounted _, h.2⟩

/-! ### The engine and the output lines (R53, R84, R98, R99) -/

/-- The frame that ends publishes a count within its bounds (R99). -/
theorem CountsFit.published (h : CountsFit ch) (hf : ch.engine = some f) :
    CountsFit { ch with engine := none, stats := publishFallback f ch.stats } := by
  refine .of_noFrame (h.stats.update ?_) rfl
  unfold publishFallback
  split <;> simp [statsList, h.fallback hf]

/-- A row built adds its fallbacks, saturating (R98). -/
theorem fallback_afterBuild_le (sc : ScalerFrame) (r : Nat) (b : Built) (hf : f.fallback ≤ 65535) :
    (afterBuild sc r b f).fallback ≤ 65535 := by
  unfold afterBuild
  dsimp only
  split
  · exact satAdd_le_max _ _
  · exact hf

/-- A turn taken leaves the fallback count. -/
theorem fallback_nextTurn {busy : Bool} {ring : List FieldRecord} {g : Frame} (h : nextTurn busy ring f = some g) :
    g.fallback = f.fallback := by
  obtain ⟨-, -, ⟨rfl, -⟩ | ⟨rfl, -, -⟩⟩ := nextTurn_cases h <;> rfl

/-- A frame begins with no fallback counted (R84). -/
theorem fallback_newFrame {t : Tables} {n num : Nat} (h : newFrame t n ch num = some f) : f.fallback = 0 := by
  obtain ⟨r, -, rfl⟩ := Option.map_eq_some_iff.1 h
  rfl

theorem CountsFit.beginFrame (h : CountsFit ch) (t : Tables) (n : Nat) (picture : Bool) :
    CountsFit (beginFrame t n picture ch) := by
  refine ⟨h.1, fun f hf => ?_⟩
  cases picture with
  | false => cases hf
  | true =>
    obtain ⟨num, -, hnew⟩ := Option.bind_eq_some_iff.1 hf
    rw [fallback_newFrame hnew]
    exact Nat.zero_le _

theorem CountsFit.activePeriod (h : CountsFit ch) (sc : ScalerFrame) (y : Nat) : CountsFit (activePeriod sc y ch) := by
  unfold Machine.activePeriod
  split
  · exact h
  · split
    · next f _ hf =>
      have hreleased : CountsFit { ch with engine := some (releaseRows { sc with nextLine := y + 1 } f) } :=
        h.withFrame (f := releaseRows _ f) (h.fallback (f := f) hf)
      refine hreleased.count (x := (picturePeriod sc f y ch).stats) ?_
      unfold picturePeriod
      dsimp only
      split <;> simp [statsList]
    · exact h

theorem CountsFit.sendReport (h : CountsFit ch) (device : BitVec 4) : CountsFit (sendReport device ch) := by
  unfold Machine.sendReport
  split <;> exact h

theorem CountsFit.linePeriod (h : CountsFit ch) (device : BitVec 4) (sc : ScalerFrame) :
    CountsFit (linePeriod device sc ch) := by
  unfold Machine.linePeriod
  split
  · exact h.sendReport device
  · split
    · exact h.activePeriod sc _
    · exact h

theorem CountsFit.endedPeriod (h : CountsFit ch) (device : BitVec 4) (x : EndedFrame) : CountsFit (endedPeriod device x ch) := by
  unfold Machine.endedPeriod
  dsimp only
  split
  · exact h.sendReport device
  · split <;> exact h

theorem CountsFit.frameValuesInForce (h : CountsFit ch) (n : Nat) : CountsFit (frameValuesInForce n ch) := by
  unfold Machine.frameValuesInForce
  split
  · split <;> exact h
  · exact h

end

end Sys2Proof.Machine
end

section
/-! SUPPORT. What the shared operations, the receiver, the tracker, the engine and the Channel Controller leave of the counters of
every channel (R53 to R56, R79, R88, R99, R127 to R132, R158, R172, R173). -/

namespace Sys2Proof.Machine

open Sys2Proof

/-- Every channel's counters stay within 0 to 65535. -/
def CountersFit (s : State) : Prop := ∀ c, CountsFit (s.ch c)

theorem countersFit_iff (s : State) : CountersSound s ↔ CountersFit s := Iff.rfl

section

variable {c : Chan} {s t : State}

theorem CountersFit.setCh (h : CountersFit s) {x : Channel} (hx : CountsFit x) : CountersFit (s.setCh c x) :=
  quadSet_forall (P := CountsFit) h hx

theorem CountersFit.modCh (h : CountersFit s) {f : Channel → Channel} (hf : ∀ ch, CountsFit ch → CountsFit (f ch)) :
    CountersFit (s.modCh c f) := h.setCh (hf _ (h c))

/-- The counters are held in the channels. -/
theorem CountersFit.device (h : CountersFit s) (ht : t.chans = s.chans) : CountersFit t := fun c => by
  rw [State.ch_congr ht]; exact h c

theorem CountersFit.eachChan {f : Chan → State → State} (hf : ∀ c s, CountersFit s → CountersFit (f c s)) (h : CountersFit s) :
    CountersFit (eachChan f s) := hf _ _ (hf _ _ (hf _ _ (hf _ _ h)))

/-! ### Reports and packets -/

theorem CountersFit.raise (h : CountersFit s) (k : EventKind) (n : Nat) : CountersFit (raise c k n s) := by
  rw [raise_eq_setCh]
  exact h.setCh (h c)

theorem CountersFit.raiseAll (h : CountersFit s) (k : EventKind) : CountersFit (raiseAll k s) :=
  h.eachChan fun _ _ h => h.raise _ _

theorem CountersFit.deliverHeld (h : CountersFit s) (n : Nat) : CountersFit (deliverHeld c n s) := by
  rw [deliverHeld_eq_setCh]
  exact h.setCh (h c)

theorem CountersFit.answer (h : CountersFit s) {tag kind : Byte} {code : AnswerCode} {r : Option Reason} {data : List Byte} :
    CountersFit (answer c tag kind code r data s) := h.modCh fun _ hc => hc

theorem CountersFit.reportWork (h : CountersFit s) : CountersFit (reportWork c s) :=
  (h.modCh (f := insertReports) fun _ hc => hc).deliverHeld 0

theorem CountersFit.discardDirective (h : CountersFit s) (k : EventKind) : CountersFit (discardDirective c k s) := by
  exact CountersFit.raise (h.modCh fun _ hc => hc.count (by simp [statsList])) k _

/-- A relay without room is counted (R172). -/
theorem CountersFit.offerRelay (h : CountersFit s) (bytes : List Byte) : CountersFit (offerRelay c bytes s) := by
  unfold Machine.offerRelay
  split
  · exact h.modCh fun _ hc => hc
  · exact h.modCh fun _ hc => hc.count (by simp [statsList])

theorem CountersFit.checkLineOf (h : CountersFit s) (ws : List LineWord) : CountersFit (checkLineOf c ws s) := by
  unfold Machine.checkLineOf sortPacket joinDirective
  split
  · split
    · split
      · exact h.modCh fun _ hc => hc
      · exact h.discardDirective _
    · exact h.offerRelay _
  · exact h.discardDirective _

theorem CountersFit.pulseNews (h : CountersFit s) (x : Rtu) (f : Family) : CountersFit (pulseNews x f s) := by
  have hchanged : ∀ c s, CountersFit s → CountersFit (familyChange f c s) := fun c s h => by
    unfold familyChange
    split
    · exact h.raise _ _
    · exact h
  unfold Machine.pulseNews
  split
  · exact h
  · split
    · exact h.raiseAll _
    · exact (h.raiseAll _).eachChan hchanged

/-! ### The ring, the arbiter and a frame that ends -/

theorem CountersFit.removeFromRing (h : CountersFit s) (ring : List FieldRecord) : CountersFit (removeFromRing c ring s) :=
  CountersFit.device (s := s.modCh c (withRing ring)) (h.modCh fun _ hc => hc) rfl

theorem CountersFit.arbitrate (h : CountersFit s) : CountersFit (arbitrate s) := by
  rcases arbitrate_cases s with hs | ⟨c, slot, l, -, -, hs⟩ | ⟨c, src, role, k, -, -, -, hs⟩ <;> rw [hs]
  · exact h
  · refine CountersFit.device (s := s.modCh c grantWriteTo) (h.modCh fun _ hc => ?_) rfl
    unfold grantWriteTo
    split <;> exact hc
  · exact CountersFit.device (s := s.modCh c grantReadTo) (h.modCh fun _ hc => hc.mapFrame fun _ => rfl) rfl

/-- The frame in progress ends, its count published (R88, R99). -/
theorem CountersFit.leaveFrame (h : CountersFit s) : CountersFit (leaveFrame c s) := by
  unfold Machine.leaveFrame
  split
  · exact h
  · next f hf =>
    exact CountersFit.device (s := s.modCh c fun ch => { ch with engine := none, stats := publishFallback f ch.stats })
      (h.setCh ((h c).published hf)) rfl

theorem CountersFit.abandonFrame (h : CountersFit s) : CountersFit (abandonFrame c s) := by
  unfold Machine.abandonFrame
  split
  · exact h
  · exact h.leaveFrame.modCh fun _ hc => hc

theorem CountersFit.endFrame (h : CountersFit s) : CountersFit (endFrame c s) := by
  unfold Machine.endFrame
  split
  · exact h
  · refine h.leaveFrame.modCh fun _ hc => ?_
    split <;> exact hc

/-- A forced drop is counted (R35). -/
theorem CountersFit.reclaim (h : CountersFit s) : CountersFit (reclaim c s) := by
  unfold Machine.reclaim
  split
  · split
    · exact h
    · dsimp only
      split
      · exact CountersFit.raise ((h.removeFromRing _).modCh fun _ hc => hc.count (by simp [statsList])) _ _
      · exact h.removeFromRing _
  · exact h

/-! ### The receiver and the tracker -/

theorem CountersFit.cadenceFieldEnd (h : CountersFit s) : CountersFit (cadenceFieldEnd c s) := by
  unfold Machine.cadenceFieldEnd
  split
  · exact h
  · have htracked : ∀ t r r1 r2, CountersFit (s.setCh c (trackFieldEnd t r r1 r2 (s.ch c)).1) := fun t r r1 r2 =>
      h.setCh ((h c).trackFieldEnd t r r1 r2)
    unfold raiseTrackEvent
    dsimp only
    split
    · exact (htracked _ _ _ _).raise _ _
    · exact htracked _ _ _ _

theorem CountersFit.closeField (h : CountersFit s) (line : LineIn) : CountersFit (closeField c line s) := by
  have hline : CountersFit (Machine.arbitrate (s.modCh c (endLine line))) := (h.modCh fun _ hc => hc.endLine line).arbitrate
  unfold Machine.closeField
  dsimp only
  split
  · exact ((hline.modCh fun _ hc => hc.closeLines).modCh fun _ hc => hc.completeField).cadenceFieldEnd
  · exact hline

theorem CountersFit.acceptField (h : CountersFit s) (flywheel : Option Parity) : CountersFit (acceptField c flywheel s) := by
  unfold Machine.acceptField
  split
  · have hcounted := h.modCh (c := c) fun _ hc => hc.countAccepted flywheel.isSome
    have happended : ∀ (num offset : Nat) (x : Channel), CountsFit x →
        CountsFit (openImage num (appendRecord num offset flywheel x)) := fun _ _ _ hx => hx
    dsimp only
    split
    · have hlost : CountersFit (lostToStarting c (s.modCh c fun ch => fieldValuesInForce (countAccepted flywheel.isSome ch))) :=
        (hcounted.abandonFrame.removeFromRing []).modCh fun _ hc => hc
      exact hlost.reclaim.modCh (happended _ _)
    · exact hcounted.reclaim.modCh (happended _ _)
  · exact h

theorem CountersFit.lineStart (h : CountersFit s) (w : TimingWord) (line : LineIn) : CountersFit (lineStart c w line s) := by
  have hbegun : ∀ (flywheel : Bool) (n : Nat) (t : State), CountersFit t → CountersFit (t.modCh c (beginField w flywheel n)) :=
    fun _ _ _ ht => ht.modCh fun _ hc => hc
  unfold Machine.lineStart
  split
  · split
    · exact (hbegun _ _ _ h).acceptField none
    · exact h
  · split
    · exact ((hbegun _ _ _ h).raise _ _).acceptField none
    · exact h
  · split
    · exact (hbegun _ _ _ (h.closeField line)).acceptField none
    · split
      · exact (hbegun _ _ _ (h.closeField line)).acceptField _
      · exact (h.modCh fun _ hc => hc.endLine line).arbitrate.modCh fun _ hc => hc.nextLine w

theorem CountersFit.lossWork (h : CountersFit s) : CountersFit (lossWork c s) := by
  have hdeclared : CountersFit (declareLoss c s) := by
    refine CountersFit.raise ((h.removeFromRing _).modCh ?_) _ _
    exact fun _ hc => hc
  unfold Machine.lossWork lossAdvance
  split
  · exact h
  · refine CountersFit.modCh ?_ fun _ hc => hc
    dsimp only
    split
    · exact h
    · split
      · exact hdeclared
      · exact h.modCh fun _ hc => hc

/-! ### Read bursts and the engine -/

theorem CountersFit.checkWord (h : CountersFit s) (slot : Fin 8) (k field num : Nat) (offer : Bool) (inhibited : Nat → Bool)
    (w : Nat) : CountersFit (checkWord c slot k field num offer inhibited s w) := by
  unfold Machine.checkWord
  split
  · exact h
  · have hcaptured : ∀ (t : State) (x : ErrorCapture), CountersFit t → CountersFit { t with capture := x } :=
      fun _ _ ht => ht.device rfl
    split
    · exact h
    · have hsingle : CountersFit (Machine.raise c .eccSingle field (s.modCh c fun ch =>
          { ch with stats := { ch.stats with eccSingle := satAdd ch.stats.eccSingle 1 } })) := by
        exact CountersFit.raise (h.modCh fun _ hc => hc.count (by simp [statsList])) _ _
      unfold singleWord
      dsimp only
      split
      · exact hsingle
      · exact hcaptured _ _ hsingle
    · have hdouble : CountersFit (Machine.raise c .eccDouble field (s.modCh c fun ch =>
          { ch with stats := { ch.stats with eccDouble := satAdd ch.stats.eccDouble 1 } })) := by
        exact CountersFit.raise (h.modCh fun _ hc => hc.count (by simp [statsList])) _ _
      unfold doubleWord
      dsimp only
      split
      · exact (hcaptured _ _ hdouble).modCh fun _ hc => hc.offerToRing _ _ _
      · exact hcaptured _ _ hdouble

theorem CountersFit.readDelivered (h : CountersFit s) (slot : Fin 8) (k num : Nat) (live present : Bool) (strikes : List Strike)
    (read : List Nat) : CountersFit (readDelivered c slot k num live present strikes read s) := by
  have hchecked : CountersFit (checkLine c slot k num live present read (strikeLine c slot k strikes s)) :=
    List.foldlRecOn (motive := CountersFit) _ _ (h.device rfl) fun _ hu w _ => hu.checkWord _ _ _ _ _ _ w
  refine CountersFit.device (s := handLine c slot k live (checkLine c slot k num live present read
    (strikeLine c slot k strikes s))) ?_ rfl
  unfold handLine
  split
  · exact hchecked.modCh fun _ hc => hc.mapFrame fun _ => rfl
  · exact hchecked

theorem CountersFit.probeRow (h : CountersFit s) (f : Frame) (r : Nat) (b : Built) : CountersFit (probeRow c f r b s) := by
  unfold Machine.probeRow
  split
  · dsimp only
    split
    · exact CountersFit.raise (s := { s with probe := .captured _ _ }) h _ _
    · exact h
  · exact h
  · exact h

/-- A row built adds its fallbacks; turns and grants count nothing (R51, R85, R87, R98). -/
theorem CountersFit.pumpEngine (h : CountersFit s) : CountersFit (pumpEngine c s) := by
  refine pumpEngine_keeps (P := CountersFit) (fun t u ht hu => ?_) (fun t u ht hu => ?_) (fun t ht => ht.arbitrate) h
  · obtain ⟨f, sc, r, b, hf, -, -, -, -, -, -, -, rfl⟩ := buildNext_cases hu
    exact CountersFit.probeRow (ht.setCh ((ht c).withFrame (fallback_afterBuild_le sc r b ((ht c).fallback hf)))) f r b
  · obtain ⟨f, g, hf, hg, rfl⟩ := turnNext_cases hu
    exact ht.setCh ((ht c).withFrame ((fallback_nextTurn hg).le.trans ((ht c).fallback hf)))

/-! ### The Channel Controller -/

theorem CountersFit.takeCentre (h : CountersFit s) (num : Nat) : CountersFit (takeCentre c num s) := by
  have hcentre : CountersFit (s.modCh c fun ch => { ch with ctl := { ch.ctl with lastOutput := some num } }) :=
    h.modCh fun _ hc => hc
  exact (hcentre.removeFromRing _).modCh (f := advanceUses num) fun _ hc => hc

/-- A REPEAT and a DROP are counted (R129, R130). -/
theorem CountersFit.schedule (h : CountersFit s) : CountersFit (schedule c s).1 := by
  unfold Machine.schedule
  split
  · unfold repeatCentre
    split
    · exact h
    · exact CountersFit.raise (h.modCh fun _ hc => CountsFit.count (ch := advanceUses _ _) hc (by
        simp [statsList, advanceUses])) _ _
  · exact h.takeCentre _
  · exact h.takeCentre _
  · dsimp only
    split
    · exact CountersFit.raise ((h.takeCentre _).modCh fun _ hc => hc.count (by simp [statsList])) _ _
    · exact h

theorem CountersFit.lossActionWork (h : CountersFit s) : CountersFit (lossActionWork c s).1 := by
  unfold Machine.lossActionWork
  split
  · exact h.modCh fun _ hc => hc
  · exact h
  · exact h

theorem CountersFit.startingWork (h : CountersFit s) (enter : ChanState) : CountersFit (startingWork c enter s).1 := by
  unfold Machine.startingWork
  split
  · exact CountersFit.schedule (h.modCh fun _ hc => hc)
  · exact h

theorem CountersFit.completeHalt (h : CountersFit s) (tag : Byte) : CountersFit (completeHalt c tag s) :=
  CountersFit.answer ((h.endFrame.removeFromRing []).modCh (f := stopChannel) fun _ hc => hc)

theorem CountersFit.chooseFrame (h : CountersFit s) (n : Nat) : CountersFit (chooseFrame c n s).1 := by
  unfold Machine.chooseFrame
  split
  · exact h
  · exact h.startingWork _
  · exact h.schedule
  · unfold haltingWork
    split
    · exact h
    · split
      · exact h.completeHalt _
      · unfold originWork
        split
        · exact h.schedule
        · exact h.startingWork _
        · exact h.lossActionWork
        · exact h
        · exact h
  · exact h.lossActionWork

theorem CountersFit.controlWork (h : CountersFit s) (n : Nat) : CountersFit (controlWork c n s) := by
  have hbegun : ∀ (picture : Bool) (t : State), CountersFit t →
      CountersFit (t.modCh c fun ch => latchScaler s.tables s.rtu.family n (beginFrame s.tables n picture ch)) :=
    fun picture _ ht => ht.modCh fun _ hc => hc.beginFrame s.tables n picture
  unfold Machine.controlWork
  refine (hbegun _ _ ?_).pumpEngine
  split
  · exact h.endFrame
  · exact (h.endFrame.modCh fun _ hc => hc.frameValuesInForce n).chooseFrame n

end

end Sys2Proof.Machine
end

section
/-! SUPPORT. What directives, the loader, output frame starts and resets leave of the counters of every channel (R99, R120, R139,
R150, R163, R165, R173), and with it every command. -/

namespace Sys2Proof.Machine

open Sys2Proof

section

variable {c : Chan} {s t : State}

/-! ### Directives -/

section

variable (h : CountersFit s) (n : Nat) (d : Directive)

include h

/-- An answer to what leaves the channels. -/
theorem CountersFit.answered (ht : t.chans = s.chans) {tag kind : Byte} {code : AnswerCode} {r : Option Reason}
    {data : List Byte} : CountersFit (Machine.answer c tag kind code r data t) :=
  (h.device ht).answer

/-- READ STATS clears the counters at most (R163, R173). -/
theorem CountersFit.doReadStats : CountersFit (doReadStats c d s) := by
  unfold Machine.doReadStats
  split
  · exact CountersFit.answer (h.modCh fun _ hc => hc.withStats statsFit_zeroStats)
  · exact h.answered rfl

/-- The directives to a channel other than READ STATS and RESET CHANNEL. -/
theorem CountersFit.channelDirectives :
    CountersFit (doProbe c d s) ∧ CountersFit (doSetFormat c n d s) ∧ CountersFit (doSetParameters c n d s) ∧
    CountersFit (doStart c d s) ∧ CountersFit (doHalt c n d s) := by
  have hchanged : ∀ {f : Channel → Channel} {data : List Byte}, (∀ ch, CountsFit ch → CountsFit (f ch)) →
      CountersFit (answerDone c d data (s.modCh c f)) := fun hf => CountersFit.answer (h.modCh hf)
  refine ⟨hchanged fun _ hc => hc, ?_, ?_, ?_, ?_⟩
  · unfold doSetFormat
    split
    · exact hchanged fun _ hc => hc
    · exact h.answer
    · exact h.answer
  · unfold doSetParameters
    split
    · exact h.answer
    · have hstored : ∀ f fr mask, CountersFit (s.modCh c (storeParameters n f fr mask)) := fun _ _ _ => h.modCh fun _ hc => hc
      refine CountersFit.answer ?_
      split
      · exact (hstored _ _ _).deliverHeld 1
      · exact hstored _ _ _
  · unfold doStart
    split
    · split
      · exact hchanged fun _ hc => hc
      · exact h.answer
    · exact h.answer
  · unfold doHalt
    split
    · exact h.modCh fun _ hc => hc
    · exact h.modCh fun _ hc => hc
    · exact h.modCh fun _ hc => hc
    · exact h.answer
    · exact h.answer

theorem CountersFit.loadDirectives :
    CountersFit (doLoadBegin c d s) ∧ CountersFit (doLoadSegment c d s) ∧ CountersFit (doLoadCommit c n d s) ∧
    CountersFit (doLoadAbort c d s) ∧ CountersFit (doReadTable c d s) := by
  refine ⟨?_, ?_, ?_, ?_, ?_⟩
  · unfold doLoadBegin
    split
    · exact h.answered rfl
    · split <;> exact h.answered rfl
    · exact h.answered rfl
    · exact h.answered rfl
  · unfold doLoadSegment
    split
    · exact h.answered rfl
    · exact h.answered rfl
    · dsimp only
      split
      · exact h.answered rfl
      · split <;> exact h.answered rfl
  · unfold doLoadCommit
    split
    · exact h.answered rfl
    · exact h.answered rfl
    · split
      · exact h.answered rfl
      · split
        · exact h.answered rfl
        · split
          · exact h.answered rfl
          · exact h.device rfl
  · unfold doLoadAbort
    split
    · exact h.answered rfl
    · exact h.answered rfl
    · split <;> exact h.answered rfl
  · unfold doReadTable
    split
    · exact h.answered rfl
    · dsimp only
      split <;> exact h.answered rfl

/-- The directives to the device other than RESTART DEVICE. -/
theorem CountersFit.deviceDirectives :
    CountersFit (doDeviceStatus c d s) ∧ CountersFit (doClearErrors c d s) ∧ CountersFit (doSetDeviceOptions c d s) ∧
    CountersFit (doArmProbe c d s) ∧ CountersFit (doReadProbe c d s) := by
  refine ⟨h.answered rfl, h.answered rfl, ?_, ?_, h.answered rfl⟩
  · unfold doSetDeviceOptions
    split <;> exact h.answered rfl
  · unfold doArmProbe
    split
    · exact h.answered rfl
    · split <;> exact h.answered rfl

/-- RESET CHANNEL clears its channel's counters and its frame (R89, R139, R173). -/
theorem CountersFit.doResetChannel : CountersFit (doResetChannel c d s) := by
  rw [doResetChannel_eq]
  exact CountersFit.device (s := s.setCh c _) (h.setCh (.of_noFrame statsFit_zeroStats rfl)) rfl

end

/-- A device restart clears every counter and every frame (R165, R173). -/
theorem countersFit_deviceRestart (s : State) : CountersFit (deviceRestart s) := fun c => by
  rw [deviceRestart_ch]
  exact countsFit_reset

theorem CountersFit.carryOutKind (h : CountersFit s) (k : DirKind) (n : Nat) (d : Directive) :
    CountersFit (carryOutKind k c n d s) := by
  obtain ⟨hprobe, hformat, hparams, hstart, hhalt⟩ := h.channelDirectives (c := c) n d
  obtain ⟨hbegin, hsegment, hcommit, habort, htable⟩ := h.loadDirectives (c := c) n d
  obtain ⟨hstatus, hclear, hoptions, harm, hread⟩ := h.deviceDirectives (c := c) d
  cases k with
  | probe => exact hprobe
  | setFormat => exact hformat
  | setParameters => exact hparams
  | start => exact hstart
  | halt => exact hhalt
  | resetChannel => exact h.doResetChannel d
  | readStats => exact h.doReadStats d
  | loadBegin => exact hbegin
  | loadSegment => exact hsegment
  | loadCommit => exact hcommit
  | loadAbort => exact habort
  | readTable => exact htable
  | deviceStatus => exact hstatus
  | clearErrors => exact hclear
  | setDeviceOptions => exact hoptions
  | armProbe => exact harm
  | readProbe => exact hread
  | restartDevice => exact countersFit_deviceRestart s

theorem CountersFit.takeNext (h : CountersFit s) (n : Nat) : CountersFit (takeNext c n s) := by
  have hcarried : ∀ (d : Directive) (t : State), CountersFit t → CountersFit (carryOut c n d t) := fun d t ht => by
    unfold carryOut
    split
    · exact ht.answer
    · split
      · exact ht.answer
      · exact ht.carryOutKind _ n d
  unfold Machine.takeNext
  split
  · exact h
  · split
    · exact h
    · split
      · exact hcarried _ _ (h.modCh fun _ hc => hc)
      · exact h.modCh fun _ hc => hc

theorem CountersFit.takeKind (h : CountersFit s) (k : Option DirKind) : CountersFit (takeKind c k s) := by
  unfold Machine.takeKind
  split
  · exact h
  · split
    · exact h.takeNext _
    · exact h

/-! ### The loader (R81, R150, R152) -/

theorem CountersFit.handSwap (h : CountersFit s) (n : Nat) (e : TableEntry) (image : List Byte) :
    CountersFit (handSwap n e image c s) := by
  cases e with
  | coef i => exact h.modCh fun _ hc => hc
  | curve i =>
    refine h.modCh fun _ hc => hc.mapFrame fun f => ?_
    unfold refreshCurve
    split <;> rfl
  | pattern i =>
    have htracked : ∀ k : Track, CountersFit (s.setCh c { s.ch c with cad := { (s.ch c).cad with track := k } }) :=
      fun _ => h.setCh (h c)
    show CountersFit (swapTracker i c s)
    unfold swapTracker
    dsimp only
    split
    · exact CountersFit.raise ((htracked _).modCh fun _ hc => hc.count (by simp [statsList])) _ _
    · exact htracked _

theorem CountersFit.swapTable (h : CountersFit s) (n : Nat) (owner : Chan) (e : TableEntry) (tag : Byte) :
    CountersFit (swapTable n owner e tag s) := by
  have hhanded : CountersFit (Machine.eachChan (Machine.handSwap n e s.shadow)
      { s with tables := setTableImage s.tables e s.shadow }) :=
    CountersFit.eachChan (fun _ _ hu => hu.handSwap n e s.shadow) (h.device rfl)
  exact hhanded.answered rfl

theorem CountersFit.loaderWork (h : CountersFit s) (n : Nat) : CountersFit (loaderWork n s) := by
  unfold Machine.loaderWork
  split
  · exact h
  · refine CountersFit.device (s := loaderAdvance n s) ?_ rfl
    unfold loaderAdvance
    split
    · exact h
    · split
      · exact CountersFit.raise (s := { s with loader := .idle, shadow := [] }) h _ _
      · exact h.device rfl
    · split
      · exact h.swapTable n _ _ _
      · exact h

/-! ### Output frame starts (R120) -/

theorem CountersFit.issueStart (h : CountersFit s) {news : State → State} (hnews : ∀ u, CountersFit u → CountersFit (news u))
    (order : List StartWork) : CountersFit (issueStart news order s) := by
  refine issueStart_keeps (P := CountersFit) (h.device rfl) (fun u w hu => ?_) (fun u hu => ?_)
  · cases w with
    | announce => exact hnews u hu
    | loader => exact hu.loaderWork _
    | control c => exact hu.controlWork _
    | loss c => exact hu.lossWork
    | report c => exact hu.reportWork
    | packet c => exact hu.takeNext _
  · have hforgotten := hu.eachChan (f := fun c t => t.modCh c fun ch =>
      { ch with pku := { ch.pku with taken := 0 }, lossDone := false, haltDone := false }) fun _ _ ht => ht.modCh fun _ hc => hc
    exact hforgotten.device rfl

theorem IssuesStart.countersFit (h : IssuesStart s t) (hs : CountersFit s) : CountersFit t := by
  have hissued : ∀ {u : State} {news : State → State} {order : List StartWork}, u.chans = s.chans →
      (∀ v, CountersFit v → CountersFit (news v)) → CountersFit (issueStart news order u) := fun hu hnews =>
    (hs.device hu).issueStart hnews _
  cases h with
  | pulse dt f order h => exact h ▸ hissued rfl fun _ hv => hv.pulseNews _ _
  | timeout order h => exact h ▸ hissued rfl fun _ hv => hv.raiseAll _
  | expiry order h => exact h ▸ hissued rfl fun _ hv => hv
  | idle h => exact h ▸ hs

/-! ### Commands -/

theorem CountersFit.execTimingWord (hs : CountersFit s) {dt : Nat} {w : TimingWord} {line : LineIn}
    (h : execTimingWord c dt w line s = .next t) : CountersFit t := by
  cases h
  have htimed : CountersFit { s with now := s.now + dt } := hs.device rfl
  refine CountersFit.lineStart (htimed.modCh fun _ hc => ?_) w line
  unfold clearLossCount
  split <;> exact hc

theorem CountersFit.execControlPacket (hs : CountersFit s) (h : execControlPacket c s = .next t) : CountersFit t := by
  unfold Machine.execControlPacket at h
  split at h <;> cases h
  · exact hs
  · refine CountersFit.checkLineOf (hs.modCh ?_) _
    exact fun _ hc => hc

theorem CountersFit.execWriteBurstComplete (hs : CountersFit s) (h : execWriteBurstComplete s = .next t) : CountersFit t := by
  unfold Machine.execWriteBurstComplete at h
  split at h <;> cases h
  · next c slot k words _ =>
    have hfreed : CountersFit (freeArbiter (writeLine c slot k words s)) := hs.device rfl
    exact hfreed.arbitrate
  · exact hs

theorem CountersFit.execReadBurstComplete (hs : CountersFit s) {line : LineRead} (h : execReadBurstComplete line s = .next t) :
    CountersFit t := by
  unfold Machine.execReadBurstComplete at h
  split at h <;> cases h
  · exact (hs.readDelivered _ _ _ _ _ _ _).pumpEngine
  · exact hs

theorem CountersFit.execInputLoss (hs : CountersFit s) (h : execInputLoss c s = .next t) : CountersFit t := by
  unfold Machine.execInputLoss at h
  split at h <;> cases h
  · exact hs.lossWork
  · exact hs

theorem CountersFit.execLoadAbandoned (hs : CountersFit s) (h : execLoadAbandoned s = .next t) : CountersFit t := by
  unfold Machine.execLoadAbandoned at h
  split at h
  · split at h <;> cases h
    · exact hs.loaderWork _
    · exact hs
  · cases h; exact hs

theorem CountersFit.execTableSwap (hs : CountersFit s) (h : execTableSwap s = .next t) : CountersFit t := by
  unfold Machine.execTableSwap at h
  split at h
  · split at h <;> cases h
    · exact hs.loaderWork _
    · exact hs
  · cases h; exact hs

theorem CountersFit.execHaltComplete (hs : CountersFit s) (h : execHaltComplete c s = .next t) : CountersFit t := by
  unfold Machine.execHaltComplete at h
  split at h
  · split at h <;> cases h
    · exact ((hs.modCh fun _ hc => hc.frameValuesInForce _).completeHalt _).modCh fun _ hc => hc
    · exact hs
  · cases h; exact hs

theorem CountersFit.execOutputLinePeriod (hs : CountersFit s) (h : execOutputLinePeriod c s = .next t) : CountersFit t := by
  unfold Machine.execOutputLinePeriod at h
  split at h <;> cases h
  · exact (hs.modCh fun _ hc => hc.linePeriod _ _).pumpEngine
  · exact hs.modCh fun _ hc => hc.endedPeriod _ _
  · exact hs

/-- Every command keeps every counter within its bounds. -/
theorem exec_countersFit {i : Instr} (hs : CountersFit s) (h : exec i s = .next t) : CountersFit t := by
  have htaken : ∀ {c : Chan} {k : Option DirKind},
      (.next (takeKind c k s) : Host.Outcome State Fault Refusal) = .next t → CountersFit t := fun h => by
    cases h; exact hs.takeKind _
  cases i with
  | powerOnReset straps found errs => cases h; intro c; cases c <;> exact countsFit_reset
  | pinReset straps => cases h; intro c; cases c <;> exact countsFit_reset
  | timingWord c dt w line => exact hs.execTimingWord h
  | controlPacket c => exact hs.execControlPacket h
  | writeBurstComplete => exact hs.execWriteBurstComplete h
  | readBurstComplete line => exact hs.execReadBurstComplete h
  | referencePulse dt f order => cases h; exact (IssuesStart.pulse dt f order rfl).countersFit hs
  | refLossTimeout order => exact (issuesStart_execRefLossTimeout h).countersFit hs
  | freeRunExpiry order => exact (issuesStart_execFreeRunExpiry h).countersFit hs
  | inputLoss c => exact hs.execInputLoss h
  | loadAbandoned => exact hs.execLoadAbandoned h
  | tableSwap => exact hs.execTableSwap h
  | haltComplete c => exact hs.execHaltComplete h
  | outputLinePeriod c => exact hs.execOutputLinePeriod h
  | restartDevice c | probe c | setFormat c | setParameters c | start c | halt c | resetChannel c | readStats c
  | loadBegin c | loadSegment c | loadCommit c | loadAbort c | readTable c | deviceStatus c | clearErrors c
  | setDeviceOptions c | armProbe c | readProbe c | unknownKind c => exact htaken h

end

/-- Settles O56: a step is the front command, and every command keeps every counter within its bounds. -/
theorem countersStayBounded : Obligations.CountersStayBounded := by
  intro s t hs h
  rw [countersFit_iff] at hs ⊢
  unfold step at h
  split at h
  · cases h; exact hs
  · next i rest _ => exact exec_countersFit (s := { s with pending := rest }) (hs.device rfl) h

end Sys2Proof.Machine
end

section
/-! SUPPORT. The step and the queue of commands (log entry 7). -/

namespace Sys2Proof.Machine

open Sys2Proof

/-- Settles O1: with a command at the front, the queue's match takes its second branch. -/
theorem stepRunsFrontCommand : Obligations.StepRunsFrontCommand := by
  intro s i rest hqueue
  unfold step
  rw [hqueue]

end Sys2Proof.Machine
end
